-- ==== Sys2Proof/Word.lean ====
section
/-! DEFINITION. The byte and the 16-bit field of the IB-2432's frames, and the two ways a fixed table is built and changed. -/

namespace Sys2Proof

/-- One byte of a frame (spec 10.1: bytes are sent MSB first). -/
abbrev Byte := BitVec 8

/-- A 16-bit field of a frame (R178: any 16-bit number is two bytes, little-endian). -/
abbrev Word := BitVec 16

/-- A table with entry `i` replaced. -/
def put {α : Type} {n : Nat} (v : Vector α n) (i : Fin n) (x : α) : Vector α n :=
  v.set i.val x i.isLt

/-- The table whose entry `i` is `f i`: a change that reaches every entry as one event. -/
def tab {α : Type} {n : Nat} (f : Fin n → α) : Vector α n :=
  Vector.ofFn f

end Sys2Proof
end

