-- ==== Sys2Proof/Syntax.lean ====
section
/-! DEFINITION. The commands of the IB-2432, one constructor for each row of spec/opcode_table.json, and the operand
types they carry. A request row carries no operand of its own: R153 says that the agent's request slot holds the
whole frame (sequence number, code and parameter bytes), and the command is the engine's carrying out of the request
that it is serving. -/

namespace Sys2Proof

/-- R127: one of the four software parties; agent 0 is the supervisor. -/
abbrev Agent := Fin 4

/-- One of GP0 to GP23. -/
abbrev Pin := Fin 24

/-- One of TB0 to TB3. -/
abbrev Base := Fin 4

/-- R114: one of the two inhibit groups. -/
inductive Group where
  | a
  | b
  deriving DecidableEq, Repr

/-- R110: the two edges of a pin's filtered level. -/
inductive EdgeDir where
  | rising
  | falling
  deriving DecidableEq, Repr

/-- A stretch of one SPI transaction as the host clocks it (R168): whether CSn falls before it, the whole bytes
clocked, the SCK edges of an incomplete last byte, and whether CSn rises after it. A whole transaction both opens and
closes; a transaction that other events fall into is given as several stretches. -/
structure Transfer where
  opens : Bool
  bytes : List Byte
  bits : Fin 8
  closes : Bool
  deriving DecidableEq, Repr

/-- The commands of the part: the rows of spec/opcode_table.json, in the table's order. -/
inductive Instr where
  | powerOn
  | resetnAssertion
  | resetnRelease
  | requestTransaction (x : Transfer)
  | fetchTransaction (x : Transfer)
  | statusTransaction (x : Transfer)
  | unknownRequest
  | openSession
  | closeSession
  | closeVisit
  | ping
  | setAttention
  | collect
  | collectVisit
  | create
  | retire
  | linkFreeVisit
  | readRecord
  | findByPin
  | findByTag
  | findByTagVisit
  | setTag
  | setLapse
  | setNotices
  | start
  | arm
  | stop
  | setLevel
  | setTiming
  | cancelStaged
  | startGroup
  | startGroupVisit
  | link
  | unlink
  | setLink
  | listLinks
  | move
  | configPin
  | grantPins
  | readPins
  | setTimebase
  | runTimebase
  | haltTimebase
  | setDivisor
  | readTimebase
  | configInhibit
  | clearInhibit
  | readInhibit
  | adopt
  | forceClose
  | forceCloseVisit
  | restart
  | restartVisit
  | readDevice
  | leaseExpiry (a : Agent)
  | lapseSweep
  | lapseSweepVisit
  | tick (b : Base)
  | edge (p : Pin) (d : EdgeDir)
  | assertion (g : Group)
  | deassertion (g : Group)
  | headerType0Transaction (x : Transfer)
  | observedLevelChange (p : Pin) (board : Option Bool)
  deriving DecidableEq, Repr

end Sys2Proof
end

