-- ==== Sys2Proof/Decode.lean ====
section
/-! DEFINITION. The commands that a word of spec/opcode_table.json spells. The table gives no row any bits (every row's
"fields" is empty and no row has "fixed"), so no word spells a command. -/

namespace Sys2Proof

/-- The command that the `nbits` bits of `w` spell by the table: none, as the table gives no row any bits. -/
def decodeTableWord (_nbits _w : Nat) : Option Instr :=
  none

end Sys2Proof
end

