-- ==== Sys2Proof/Config.lean ====
section
/-! DEFINITION. What the part fixes once (its identity, its lease unit, its default notice set) and the values the
manual leaves open, which are opaque: nothing can be proved about them. -/

namespace Sys2Proof.Config

/-- Table 0-2 and R128: one lease unit is 65,536 core-clock periods. -/
def leaseUnit : Nat := 65536

/-- R166: the part code. -/
def partCode : Word := 0x2432

/-- R166: the revision. -/
def revision : Byte := 1

/-- R173 step 1: the largest parameter length the port lets through. -/
def maxParams : Nat := 28

/-- R178: the notice enable set of CREATE, all except PERIOD, MARK_A and MARK_B. -/
def defaultNotices : BitVec 9 := 0x1F1

/-- R174: the generator polynomial of CRC-8, x^8 + x^2 + x + 1. -/
def crcPolynomial : Byte := 0x07

/-- R174: the value of the CRC register at the first byte it covers. -/
def crcStart : Byte := 0xFF

/-- R82: events of different records, and of different pins, occur "in whichever order they occur". FREE VALUE:
`pick draw k` says which of the waiting sources hands its next event on. DESIGN CHOICE (log entry 5). -/
opaque pick : Nat → Nat → Nat

/-- R110: a change of the observed level that reverts within two core-clock periods either becomes a change of the
filtered level or is passed over, and the part does not fix which. FREE VALUE: `narrowTaken draw pin`.
DESIGN CHOICE (log entry 6). -/
opaque narrowTaken : Nat → Nat → Bool

/-- The level of a pin that nothing drives and that has no pull: R94 and R109 give it no value. FREE VALUE:
`floatingLevel draw pin`. DESIGN CHOICE (log entry 7). -/
opaque floatingLevel : Nat → Nat → Bool

/-- R115: what the board puts on INH_A and INH_B at a sample, true for low. No row of the table moves these inputs, so
the board may put any level there at each sample. FREE VALUE: `inhibitInput draw group`, with 0 for group A and 1 for
group B. DESIGN CHOICE (log entry 17). -/
opaque inhibitInput : Nat → Nat → Bool

/-- R115: a change of an inhibit input that reverts within two core-clock periods either becomes a change of the line
level or is passed over, and the part does not fix which. FREE VALUE: `narrowLineTaken draw group`. DESIGN CHOICE (log
entry 6). -/
opaque narrowLineTaken : Nat → Nat → Bool

end Sys2Proof.Config
end

