-- ==== Sys2Proof/Machine/State.lean ====
section
/-! DEFINITION. Everything the manual gives the IB-2432 to hold, as plain data, and its value after power-on.
What the manual computes from other state (ATTN, shown levels, whether a lease timer runs) is in Ops.lean. -/

namespace Sys2Proof.Machine

/-! ## Records (chapter 1) -/

/-- One of the 32 slots of the record table (R1). -/
abbrev SlotIx := Fin 32

/-- One of the 64 entries of the link pool (R69). -/
abbrev LinkIx := Fin 64

/-- R2: the name of a record, its slot and the generation the slot had when it was made; value `gen * 32 + slot`. -/
structure Handle where
  gen : Fin 16
  slot : SlotIx
  deriving DecidableEq, Repr

/-- R6: the form of a record's output. -/
inductive Kind where
  | level
  | setAt
  | clearAt
  | toggleAt
  | pulseOnce
  | pulseTrain
  | pwm
  deriving DecidableEq, Repr

/-- R4: the states of an occupied slot's record. -/
inductive RecState where
  | idle
  | armed
  | running
  | done
  deriving DecidableEq, Repr

/-- R6, R46: which mark a PULSE_ONCE or PULSE_TRAIN record waits for. -/
inductive Phase where
  | waitA
  | waitB
  deriving DecidableEq, Repr

/-- R11: what a lapse sweep does with the record. -/
inductive LapseAction where
  | keep
  | park
  | retire
  deriving DecidableEq, Repr

/-- R69: what a link asks of its target. -/
inductive CueAction where
  | start
  | stop
  | align
  deriving DecidableEq, Repr

/-- R80: a pending cue, its action and the index of the link that delivered it. -/
structure Cue where
  action : CueAction
  link : LinkIx
  deriving DecidableEq, Repr

/-- R6, R56: a period and its two marks, live or staged. -/
structure Timing where
  period : Word
  markA : Word
  markB : Word
  deriving DecidableEq, Repr

/-- 6.4: the held mark of a record. -/
inductive Held where
  | clear
  | held
  | owed
  deriving DecidableEq, Repr

/-- R142: the nine notices, in the order of the notice-set encoding of R178. -/
inductive Notice where
  | done
  | period
  | markA
  | markB
  | committed
  | held
  | released
  | cueLost
  | lapsed
  deriving DecidableEq, Repr

/-- R143, R178: a subset of the nine notices, bit `i` for the `i`-th. -/
abbrev NoticeSet := BitVec 9

/-- R6: the fields of a record. A field its kind does not have (R7) holds 0 (WAIT_A, absent) and is read by nothing.
The handle is not held twice: it is the slot's generation and number. -/
structure Record where
  owner : Agent
  orphan : Bool
  tag : Byte
  kind : Kind
  state : RecState
  base : Base
  timing : Timing
  level : Bool
  invert : Bool
  rearm : Bool
  pin : Option Pin
  lapse : LapseAction
  counter : Word
  phase : Phase
  output : Bool
  staged : Option Timing
  cue : Option Cue
  held : Held
  groupWait : Option Base
  enableSet : NoticeSet
  pendingSet : NoticeSet
  againSet : NoticeSet
  outgoing : List LinkIx
  deriving DecidableEq, Repr

/-- R1: a slot's generation and the record it holds, if any (EMPTY when none). -/
structure Slot where
  gen : Fin 16
  record : Option Record
  deriving DecidableEq, Repr

/-! ## Time bases (chapter 2) -/

/-- R25: where a base's ticks come from; the count pin and edge are present for PIN alone. -/
inductive Source where
  | core
  | pin (p : Pin) (d : EdgeDir)
  deriving DecidableEq, Repr

/-- R25, R27: the interval in progress of a RUNNING CORE base: periods counted, and the divisor in force. -/
structure Interval where
  count : Nat
  inForce : Nat
  deriving DecidableEq, Repr

/-- R25: a time base. `interval` is absent unless the base is CORE and RUNNING. -/
structure TimeBase where
  source : Source
  divisor : Nat
  running : Bool
  latch : Bool
  interval : Option Interval
  deriving DecidableEq, Repr

/-! ## Link pool (chapter 4) -/

/-- R69, R83: the source events a link can name. -/
inductive SourceEvent where
  | started
  | period
  | markA
  | markB
  | done
  | rise
  | fall
  | either
  deriving DecidableEq, Repr

/-- R69: the source of a link. -/
inductive LinkSource where
  | record (h : Handle)
  | pin (p : Pin)
  deriving DecidableEq, Repr

/-- R69: the fields of a link in use. -/
structure Link where
  source : LinkSource
  event : SourceEvent
  target : Handle
  action : CueAction
  enabled : Bool
  deriving DecidableEq, Repr

/-! ## Pin table (chapter 5) -/

/-- R91: the role of a pin. -/
inductive Role where
  | off
  | output
  | cueInput
  | countInput
  deriving DecidableEq, Repr

/-- R91, R94: how an output pin is driven. -/
inductive Drive where
  | pushPull
  | openDrain
  deriving DecidableEq, Repr

/-- R91: the internal pull of a pin. -/
inductive Pull where
  | none
  | up
  | down
  deriving DecidableEq, Repr

/-- R91, R93: an idle level or a safe action. -/
inductive PinLevel where
  | low
  | high
  | float
  deriving DecidableEq, Repr

/-- R91, R96: what CONFIG_PIN gives a pin. -/
structure PinConfig where
  role : Role
  drive : Drive
  pull : Pull
  idle : PinLevel
  safe : PinLevel
  group : Option Group
  deriving DecidableEq, Repr

/-- R91: a pin's entry. Bit `a` of `grants` is agent `a`'s grant, for agents 1 to 3. `links` is the pin's ordered list
of the link pool (R70). `board` is the level that the board outside the part puts on the pin, none where it puts
nothing; `narrow` says that the last sample differed from the filtered level (R110). -/
structure PinEntry where
  config : PinConfig
  grants : BitVec 4
  claim : Option Handle
  links : List LinkIx
  observed : Bool
  filtered : Bool
  narrow : Bool
  board : Option Bool
  deriving DecidableEq, Repr

/-- R94: what a pin does electrically. -/
inductive Shown where
  | drives0
  | drives1
  | released
  deriving DecidableEq, Repr

/-! ## Inhibit unit (chapter 6) -/

/-- R114: the policy of a group. -/
inductive Policy where
  | auto
  | latched
  deriving DecidableEq, Repr

/-- R114: the state of a group. -/
inductive GroupState where
  | clear
  | active
  | latched
  deriving DecidableEq, Repr

/-- R114: a group. `line` is the line level (true for asserted). `input` is the inhibit input (true for low) as last
sampled, or as the board has moved it since RESETn fell; `narrow` says that the last sample differed from the line level
(R115). -/
structure InhibitGroup where
  enabled : Bool
  policy : Policy
  state : GroupState
  line : Bool
  input : Bool
  narrow : Bool
  deriving DecidableEq, Repr

/-! ## Session table (chapter 7) -/

/-- R128: the state of a session. -/
inductive SessionState where
  | closed
  | opened
  | lapsed
  deriving DecidableEq, Repr

/-- R128: an agent's session: its lease interval in lease units, the core-clock periods its lease timer has left, and
its attention enable. Whether the timer runs follows from R134. -/
structure Session where
  state : SessionState
  lease : Byte
  timer : Nat
  attention : Bool
  deriving DecidableEq, Repr

/-! ## Request engine (chapter 9) -/

/-- R180: the statuses of a response. -/
inductive Status where
  | ok
  | noSession
  | unknownRequest
  | badLength
  | privilege
  | badValue
  | staleHandle
  | notOwner
  | noSlot
  | pinDenied
  | pinBusy
  | recordBusy
  | badState
  | linkFull
  | linkLimit
  | linkDuplicate
  | baseMismatch
  | inhibitActive
  | lapsed
  | restarted
  | closed
  deriving DecidableEq, Repr

/-- R153: a request frame as the slot holds it; the length is that of `params`. -/
structure Frame where
  seq : Byte
  code : Byte
  params : List Byte
  deriving DecidableEq, Repr

/-- R154: a response frame as the slot holds it. -/
structure Response where
  seq : Byte
  code : Byte
  status : Status
  data : List Byte
  deriving DecidableEq, Repr

/-- R153: an agent's request slot. -/
inductive RequestSlot where
  | empty
  | queued (f : Frame)
  | active (f : Frame)
  | sweepQueued
  | sweepActive
  deriving DecidableEq, Repr

/-- R153, R154, R172: an agent's port: its request slot, its response slot (EMPTY when none) and its four flags. -/
structure Port where
  request : RequestSlot
  response : Option Response
  overrun : Bool
  lost : Bool
  crcError : Bool
  frameError : Bool
  deriving DecidableEq, Repr

/-- R148: one entry of a COLLECT response. -/
structure Collected where
  handle : Handle
  pendingSet : NoticeSet
  againSet : NoticeSet
  deriving DecidableEq, Repr

/-- R162: how far the operation in progress has come. `chosen` is an operation that the arbiter has chosen and whose
checks, or first visit, have not been made; the others name the next visit and what the response needs. -/
inductive Work where
  | chosen
  | retiring (h : Handle) (next : LinkIx)
  | closing (next : SlotIx) (retired : Nat)
  | forceClosing (target : Agent) (previous : SessionState) (request sweep : Bool) (next : SlotIx) (retired : Nat)
  | sweeping (next : SlotIx)
  | restarting (discarded : BitVec 4) (next : SlotIx) (retired : Nat)
  | grouping (base : Base) (left : List Handle) (visited : Nat) (marked : Byte)
  | finding (tag : Byte) (next : SlotIx) (found : List Handle)
  | collecting (next : SlotIx) (entries : List Collected)
  deriving DecidableEq, Repr

/-- R152: the operation in progress: its agent, whether it is a lapse sweep, and how far it has come. -/
structure Operation where
  agent : Agent
  sweep : Bool
  work : Work
  deriving DecidableEq, Repr

/-- R152, R167: the reset cause. -/
inductive ResetCause where
  | powerOn
  | resetLine
  | restart
  deriving DecidableEq, Repr

/-- R152: the request engine; it is idle while `op` is absent. -/
structure Engine where
  op : Option Operation
  lastServed : Agent
  cause : ResetCause
  deriving DecidableEq, Repr

/-! ## Host port (chapter 10) -/

/-- R168: what the receiver holds while CSn is low: the whole bytes received, the status byte captured for the agent
(R171), the frame chosen to be sent out by a FETCH (R176), and whether that frame is the response in the slot. -/
structure Reception where
  bytes : List Byte
  captured : Byte
  sending : List Byte
  taking : Bool
  deriving DecidableEq, Repr

/-- R167, R169: the RESETn input. `lowSincePowerOn` is low from power-on without a break. -/
inductive ResetLine where
  | high
  | low
  | lowSincePowerOn
  deriving DecidableEq, Repr

/-- The whole part. `csnLow` is the CSn input, `receiver` the frame receiver (idle when none); `sdo` holds the whole
bytes driven out on SDO since CSn last fell or the part was last reset, and `sdoBits` the bits of an incomplete byte
after them, first driven first (log entry 14); `draws` numbers the free values (the model's own field) and `pending` is
the queue of commands. -/
structure State where
  resetn : ResetLine
  slots : Vector Slot 32
  bases : Vector TimeBase 4
  links : Vector (Option Link) 64
  pins : Vector PinEntry 24
  groupA : InhibitGroup
  groupB : InhibitGroup
  sessions : Vector Session 4
  ports : Vector Port 4
  engine : Engine
  csnLow : Bool
  receiver : Option Reception
  sdo : List Byte
  sdoBits : List Bool
  draws : Nat
  pending : List Instr
  deriving DecidableEq, Repr

/-- The block stops with no fault: the manual describes none. Closed and without a constructor. -/
inductive Fault where
  deriving DecidableEq, Repr

/-- The ways a command can be without a meaning. -/
inductive Refusal where
  /-- Raised by an arm of exec whose command has no meaning yet; safe, since the machine stops. No arm raises it. -/
  | notModelled (mnemonic : String)
  deriving DecidableEq, Repr

/-! ## The values after power-on -/

/-- R25, after power-on. -/
def TimeBase.initial : TimeBase where
  source := .core
  divisor := 1
  running := false
  latch := false
  interval := none

/-- R91, after power-on. -/
def PinConfig.initial : PinConfig where
  role := .off
  drive := .pushPull
  pull := .none
  idle := .low
  safe := .float
  group := none

/-- R91, after power-on, on a board that holds the pin low (DESIGN CHOICE, log entry 8). -/
def PinEntry.initial : PinEntry where
  config := .initial
  grants := 0
  claim := none
  links := []
  observed := false
  filtered := false
  narrow := false
  board := some false

/-- R114, after power-on, with the inhibit input high, which is deasserted (DESIGN CHOICE, log entry 8). -/
def InhibitGroup.initial : InhibitGroup where
  enabled := false
  policy := .auto
  state := .clear
  line := false
  input := false
  narrow := false

/-- R128, after power-on. -/
def Session.initial : Session where
  state := .closed
  lease := 0
  timer := 0
  attention := false

/-- R153, R154, R169, after power-on. -/
def Port.initial : Port where
  request := .empty
  response := none
  overrun := false
  lost := false
  crcError := false
  frameError := false

/-- R152, after power-on. -/
def Engine.initial : Engine where
  op := none
  lastServed := 3
  cause := .powerOn

/-- The part right after power-on with RESETn high and CSn high (R24, R25, R69, R91, R114, R128, R152, R169). -/
def State.reset : State where
  resetn := .high
  slots := .replicate 32 { gen := 0, record := none }
  bases := .replicate 4 .initial
  links := .replicate 64 none
  pins := .replicate 24 .initial
  groupA := .initial
  groupB := .initial
  sessions := .replicate 4 .initial
  ports := .replicate 4 .initial
  engine := .initial
  csnLow := false
  receiver := none
  sdo := []
  sdoBits := []
  draws := 0
  pending := []

end Sys2Proof.Machine
end

