-- ==== Sys2Proof/Machine/Operands.lean ====
section
/-! DEFINITION. The fields of request and response frames (R178): how each is read from the parameter bytes, how each
is written into the response data, and the CRC-8 that closes a frame (R174). -/

namespace Sys2Proof.Machine

/-! ## Bytes and words -/

/-- Parameter byte `i`, counted from 0. -/
def byteAt (p : List Byte) (i : Nat) : Byte :=
  p.getD i 0

/-- R178: a 16-bit parameter, low byte first. -/
def wordAt (p : List Byte) (i : Nat) : Word :=
  BitVec.ofNat 16 ((byteAt p i).toNat + 256 * (byteAt p (i + 1)).toNat)

/-- A byte of a response. -/
def toByte (n : Nat) : Byte :=
  BitVec.ofNat 8 n

/-- R178: a 16-bit number of a response, low byte first. -/
def wordBytes (n : Nat) : List Byte :=
  [toByte n, toByte (n / 256)]

/-! ## Handles -/

/-- R2: the value of a handle. -/
def Handle.value (h : Handle) : Nat :=
  h.gen.val * 32 + h.slot.val

/-- R2, R178: the handle that a 16-bit field names; 512 and above name none. -/
def Handle.ofWord (w : Word) : Option Handle :=
  if w.toNat < 512 then some { gen := Fin.ofNat 16 (w.toNat / 32), slot := Fin.ofNat 32 (w.toNat % 32) } else none

/-- R178: a handle in a response, 0xFFFF for none. -/
def handleBytes : Option Handle → List Byte
  | some h => wordBytes h.value
  | none => [0xFF, 0xFF]

/-! ## Reading the coded fields of a request -/

/-- R178: the kind codes. -/
def Kind.ofByte (b : Byte) : Option Kind :=
  match b.toNat with
  | 0 => some .level
  | 1 => some .setAt
  | 2 => some .clearAt
  | 3 => some .toggleAt
  | 4 => some .pulseOnce
  | 5 => some .pulseTrain
  | 6 => some .pwm
  | _ => none

/-- R178: the lapse action codes. -/
def LapseAction.ofByte (b : Byte) : Option LapseAction :=
  match b.toNat with
  | 0 => some .keep
  | 1 => some .park
  | 2 => some .retire
  | _ => none

/-- R178: a base number. -/
def baseOfByte (b : Byte) : Option Base :=
  if h : b.toNat < 4 then some ⟨b.toNat, h⟩ else none

/-- R178: an agent number. -/
def agentOfByte (b : Byte) : Option Agent :=
  if h : b.toNat < 4 then some ⟨b.toNat, h⟩ else none

/-- R178: a pin number. -/
def pinOfNat (n : Nat) : Option Pin :=
  if h : n < 24 then some ⟨n, h⟩ else none

/-- R178: a pin field that may be 0xFF for none; the outer option is absent when the field is out of range. -/
def pinOrNone (b : Byte) : Option (Option Pin) :=
  if b = 0xFF then some none else (pinOfNat b.toNat).map some

/-- R178: a yes/no or level field, 0 or 1. -/
def bitOfByte (b : Byte) : Option Bool :=
  match b.toNat with
  | 0 => some false
  | 1 => some true
  | _ => none

/-- R178: a slot number, 0 to 31. -/
def slotOfByte (b : Byte) : Option SlotIx :=
  if h : b.toNat < 32 then some ⟨b.toNat, h⟩ else none

/-- R178: a link index, 0 to 63. -/
def linkOfByte (b : Byte) : Option LinkIx :=
  if h : b.toNat < 64 then some ⟨b.toNat, h⟩ else none

/-- R178: the source event codes. -/
def SourceEvent.ofByte (b : Byte) : Option SourceEvent :=
  match b.toNat with
  | 0 => some .started
  | 1 => some .period
  | 2 => some .markA
  | 3 => some .markB
  | 4 => some .done
  | 5 => some .rise
  | 6 => some .fall
  | 7 => some .either
  | _ => none

/-- R69: which source events a record has; the others are a pin's. -/
def SourceEvent.ofRecord : SourceEvent → Bool
  | .started | .period | .markA | .markB | .done => true
  | .rise | .fall | .either => false

/-- R178: the cue action codes. -/
def CueAction.ofByte (b : Byte) : Option CueAction :=
  match b.toNat with
  | 0 => some .start
  | 1 => some .stop
  | 2 => some .align
  | _ => none

/-- R178: the role codes. -/
def Role.ofByte (b : Byte) : Option Role :=
  match b.toNat with
  | 0 => some .off
  | 1 => some .output
  | 2 => some .cueInput
  | 3 => some .countInput
  | _ => none

/-- R178: the drive codes. -/
def Drive.ofByte (b : Byte) : Option Drive :=
  match b.toNat with
  | 0 => some .pushPull
  | 1 => some .openDrain
  | _ => none

/-- R178: the pull codes. -/
def Pull.ofByte (b : Byte) : Option Pull :=
  match b.toNat with
  | 0 => some .none
  | 1 => some .up
  | 2 => some .down
  | _ => Option.none

/-- R178: the idle level and safe action codes. -/
def PinLevel.ofByte (b : Byte) : Option PinLevel :=
  match b.toNat with
  | 0 => some .low
  | 1 => some .high
  | 2 => some .float
  | _ => none

/-- R178: the pin group codes; the outer option is absent when the field is out of range. -/
def pinGroupOfByte (b : Byte) : Option (Option Group) :=
  match b.toNat with
  | 0 => some none
  | 1 => some (some .a)
  | 2 => some (some .b)
  | _ => none

/-- R178: the inhibit group codes; inhibit requests accept 1 and 2 alone. -/
def groupOfByte (b : Byte) : Option Group :=
  match b.toNat with
  | 1 => some .a
  | 2 => some .b
  | _ => none

/-- R178: the policy codes. -/
def Policy.ofByte (b : Byte) : Option Policy :=
  match b.toNat with
  | 0 => some .auto
  | 1 => some .latched
  | _ => none

/-- R178: the count edge codes 1 RISE and 2 FALL; 0 is none. -/
def edgeOfByte (b : Byte) : Option EdgeDir :=
  match b.toNat with
  | 1 => some .rising
  | 2 => some .falling
  | _ => none

/-- R30: the source, pin and edge fields of SET_TIMEBASE with the divisor; absent when a field is out of range. -/
def sourceOfFields (source : Byte) (divisor : Nat) (pin edge : Byte) : Option Source :=
  match source.toNat with
  | 0 => if pin = 0xFF ∧ edge = 0 then some .core else none
  | 1 =>
    match pinOfNat pin.toNat, edgeOfByte edge with
    | some p, some d => if divisor = 1 then some (.pin p d) else none
    | _, _ => none
  | _ => none

/-- R72, R78: the source type and source fields of LINK and LIST_LINKS; absent when out of range. -/
def linkSourceOfFields (type : Byte) (source : Word) : Option LinkSource :=
  match type.toNat with
  | 0 => (Handle.ofWord source).map .record
  | 1 => (pinOfNat source.toNat).map .pin
  | _ => none

/-- R178: a notice set; bits 15-9 must be zero. -/
def noticesOfWord (w : Word) : Option NoticeSet :=
  if w.toNat < 512 then some (w.setWidth 9) else none

/-- R178: one entry of GRANT_PINS: the pin, and whether it is granted; bits 6-5 must be zero. -/
def grantOfByte (b : Byte) : Option (Pin × Bool) :=
  if b.toNat / 32 % 4 = 0 then (pinOfNat (b.toNat % 32)).map fun p => (p, decide (128 ≤ b.toNat)) else none

/-! ## Writing the coded fields of a response -/

/-- R178: the kind codes. -/
def Kind.code : Kind → Nat
  | .level => 0
  | .setAt => 1
  | .clearAt => 2
  | .toggleAt => 3
  | .pulseOnce => 4
  | .pulseTrain => 5
  | .pwm => 6

/-- R178: the record state codes; 0 EMPTY is not sent. -/
def RecState.code : RecState → Nat
  | .idle => 1
  | .armed => 2
  | .running => 3
  | .done => 4

/-- R181: the phase bit. -/
def Phase.code : Phase → Nat
  | .waitA => 0
  | .waitB => 1

/-- R178: the lapse action codes. -/
def LapseAction.code : LapseAction → Nat
  | .keep => 0
  | .park => 1
  | .retire => 2

/-- R178: the cue action codes. -/
def CueAction.code : CueAction → Nat
  | .start => 0
  | .stop => 1
  | .align => 2

/-- R178: the source event codes. -/
def SourceEvent.code : SourceEvent → Nat
  | .started => 0
  | .period => 1
  | .markA => 2
  | .markB => 3
  | .done => 4
  | .rise => 5
  | .fall => 6
  | .either => 7

/-- R178: the role codes. -/
def Role.code : Role → Nat
  | .off => 0
  | .output => 1
  | .cueInput => 2
  | .countInput => 3

/-- R178: the drive codes. -/
def Drive.code : Drive → Nat
  | .pushPull => 0
  | .openDrain => 1

/-- R178: the pull codes. -/
def Pull.code : Pull → Nat
  | .none => 0
  | .up => 1
  | .down => 2

/-- R178: the idle level and safe action codes. -/
def PinLevel.code : PinLevel → Nat
  | .low => 0
  | .high => 1
  | .float => 2

/-- R178: the pin group codes. -/
def groupCode : Option Group → Nat
  | none => 0
  | some .a => 1
  | some .b => 2

/-- R183: the grant set of a CONFIG entry, "in bits 6–4, for agents 1, 2 and 3 in that order", read as bit 6 for agent
1, bit 5 for agent 2 and bit 4 for agent 3 (DEDUCED, log entry 28). -/
def grantSetCode (grants : BitVec 4) : Nat :=
  64 * (grants.getLsbD 1).toNat + 32 * (grants.getLsbD 2).toNat + 16 * (grants.getLsbD 3).toNat

/-- R178: the shown level codes. -/
def Shown.code : Shown → Nat
  | .drives0 => 0
  | .drives1 => 1
  | .released => 2

/-- R178: the policy codes. -/
def Policy.code : Policy → Nat
  | .auto => 0
  | .latched => 1

/-- R178: the group state codes. -/
def GroupState.code : GroupState → Nat
  | .clear => 0
  | .active => 1
  | .latched => 2

/-- R178: the session state codes. -/
def SessionState.code : SessionState → Nat
  | .closed => 0
  | .opened => 1
  | .lapsed => 2

/-- R178: the reset cause codes. -/
def ResetCause.code : ResetCause → Nat
  | .powerOn => 0
  | .resetLine => 1
  | .restart => 2

/-- R178: the count edge codes. -/
def edgeCode : EdgeDir → Nat
  | .rising => 1
  | .falling => 2

/-- R180: the status codes. -/
def Status.code : Status → Byte
  | .ok => 0x00
  | .noSession => 0x01
  | .unknownRequest => 0x02
  | .badLength => 0x03
  | .privilege => 0x04
  | .badValue => 0x05
  | .staleHandle => 0x06
  | .notOwner => 0x07
  | .noSlot => 0x08
  | .pinDenied => 0x09
  | .pinBusy => 0x0A
  | .recordBusy => 0x0B
  | .badState => 0x0C
  | .linkFull => 0x0D
  | .linkLimit => 0x0E
  | .linkDuplicate => 0x0F
  | .baseMismatch => 0x10
  | .inhibitActive => 0x11
  | .lapsed => 0x12
  | .restarted => 0x13
  | .closed => 0x14

/-! ## Request codes -/

/-- R179: the requests of the request table. -/
inductive ReqCode where
  | openSession
  | closeSession
  | ping
  | setAttention
  | collect
  | create
  | retire
  | readRecord
  | findByPin
  | findByTag
  | setTag
  | setLapse
  | setNotices
  | start
  | arm
  | stop
  | setLevel
  | setTiming
  | cancelStaged
  | startGroup
  | link
  | unlink
  | setLink
  | listLinks
  | move
  | configPin
  | grantPins
  | readPins
  | setTimebase
  | runTimebase
  | haltTimebase
  | setDivisor
  | readTimebase
  | configInhibit
  | clearInhibit
  | readInhibit
  | adopt
  | forceClose
  | restart
  | readDevice
  deriving DecidableEq, Repr

/-- R179: the code of each request. -/
def ReqCode.byte : ReqCode → Byte
  | .openSession => 0x01
  | .closeSession => 0x02
  | .ping => 0x03
  | .setAttention => 0x04
  | .collect => 0x05
  | .create => 0x10
  | .retire => 0x11
  | .readRecord => 0x12
  | .findByPin => 0x13
  | .findByTag => 0x14
  | .setTag => 0x15
  | .setLapse => 0x16
  | .setNotices => 0x17
  | .start => 0x20
  | .arm => 0x21
  | .stop => 0x22
  | .setLevel => 0x23
  | .setTiming => 0x24
  | .cancelStaged => 0x25
  | .startGroup => 0x26
  | .link => 0x30
  | .unlink => 0x31
  | .setLink => 0x32
  | .listLinks => 0x33
  | .move => 0x40
  | .configPin => 0x41
  | .grantPins => 0x42
  | .readPins => 0x43
  | .setTimebase => 0x50
  | .runTimebase => 0x51
  | .haltTimebase => 0x52
  | .setDivisor => 0x53
  | .readTimebase => 0x54
  | .configInhibit => 0x60
  | .clearInhibit => 0x61
  | .readInhibit => 0x62
  | .adopt => 0x70
  | .forceClose => 0x71
  | .restart => 0x72
  | .readDevice => 0x73

/-- R179: the request table. -/
def requestTable : List ReqCode :=
  [.openSession, .closeSession, .ping, .setAttention, .collect, .create, .retire, .readRecord, .findByPin, .findByTag,
    .setTag, .setLapse, .setNotices, .start, .arm, .stop, .setLevel, .setTiming, .cancelStaged, .startGroup] ++
  [.link, .unlink, .setLink, .listLinks, .move, .configPin, .grantPins, .readPins, .setTimebase, .runTimebase,
    .haltTimebase, .setDivisor, .readTimebase, .configInhibit, .clearInhibit, .readInhibit, .adopt, .forceClose,
    .restart, .readDevice]

/-- R158 check 2: whether a code is one of the request codes. -/
def knownCode (b : Byte) : Bool :=
  requestTable.any fun c => c.byte == b

/-- R127, R179: the requests that only the supervisor may make. -/
def ReqCode.sup : ReqCode → Bool
  | .configPin | .grantPins | .setTimebase | .runTimebase | .haltTimebase | .setDivisor => true
  | .configInhibit | .clearInhibit | .adopt | .forceClose | .restart => true
  | _ => false

/-- R158 check 3, R179: whether the parameter length is the one the code requires. START_GROUP takes it from its count
field, and GRANT_PINS takes any number of entries. -/
def ReqCode.lengthOk (c : ReqCode) (p : List Byte) : Bool :=
  match c with
  | .closeSession | .ping | .readInhibit | .restart | .readDevice => p.length == 0
  | .openSession | .setAttention | .collect | .findByPin | .unlink | .runTimebase => p.length == 1
  | .haltTimebase | .readTimebase | .clearInhibit | .forceClose => p.length == 1
  | .retire | .readRecord | .findByTag | .start | .arm | .stop | .cancelStaged | .setLink => p.length == 2
  | .setTag | .setLapse | .setLevel | .move | .readPins | .setDivisor | .configInhibit | .adopt => p.length == 3
  | .setNotices | .listLinks => p.length == 4
  | .setTimebase => p.length == 6
  | .configPin => p.length == 7
  | .setTiming | .link => p.length == 8
  | .create => p.length == 14
  | .startGroup => 1 ≤ p.length && p.length == 1 + 2 * (byteAt p 0).toNat
  | .grantPins => 1 ≤ p.length

/-! ## CRC-8 and response frames -/

/-- R174: the CRC register after one shift. -/
def crcShift (r : Byte) : Byte :=
  if r.msb then (r <<< 1) ^^^ Config.crcPolynomial else r <<< 1

/-- R174: the CRC register after eight shifts. -/
def crcShift8 (r : Byte) : Byte :=
  crcShift (crcShift (crcShift (crcShift (crcShift (crcShift (crcShift (crcShift r)))))))

/-- R174: the CRC-8 of the bytes it covers. -/
def crc8 (bytes : List Byte) : Byte :=
  bytes.foldl (fun r b => crcShift8 (r ^^^ b)) Config.crcStart

/-- A frame closed by its CRC-8 (R174). -/
def sealed (bytes : List Byte) : List Byte :=
  bytes ++ [crc8 bytes]

/-- R177: the bytes of a response frame. -/
def Response.bytes (r : Response) : List Byte :=
  sealed ([r.seq, r.code, r.status.code, toByte r.data.length] ++ r.data)

/-- R176: the empty frame. -/
def emptyFrame : List Byte :=
  sealed [0, 0, 0, 0]

/-- R161: an OK response to a request. -/
def Frame.answer (f : Frame) (data : List Byte) : Response where
  seq := f.seq
  code := f.code
  status := .ok
  data := data

/-- R160, R133, R164: a response with a status other than OK carries no data. -/
def Frame.refusal (f : Frame) (st : Status) : Response where
  seq := f.seq
  code := f.code
  status := st
  data := []

end Sys2Proof.Machine
end

