-- ==== Sys2Proof/Machine/Flags.lean ====
section
/-! DEFINITION. The notice sets of a record (R143, R144), the ATTN line (R150) and the status byte of an agent (R171). -/

namespace Sys2Proof.Machine

/-- R178: the bit of a notice in a notice set. -/
def Notice.index : Notice → Nat
  | .done => 0
  | .period => 1
  | .markA => 2
  | .markB => 3
  | .committed => 4
  | .held => 5
  | .released => 6
  | .cueLost => 7
  | .lapsed => 8

/-- The set of one notice. -/
def Notice.bit (n : Notice) : NoticeSet :=
  1#9 <<< n.index

/-- Whether a notice is in a set. -/
def hasNotice (x : NoticeSet) (n : Notice) : Bool :=
  x.getLsbD n.index

/-- R144: a notice is offered to a record's sets. -/
def Record.offer (r : Record) (n : Notice) : Record :=
  if hasNotice r.enableSet n then
    if hasNotice r.pendingSet n then { r with againSet := r.againSet ||| n.bit }
    else { r with pendingSet := r.pendingSet ||| n.bit }
  else r

/-- What can occur at a record: its five events and its nine notices (R40, R142). -/
inductive Occurrence where
  | started
  | committed
  | held
  | released
  | period
  | markA
  | markB
  | done
  | lapsed
  deriving DecidableEq, Repr

/-- R40, R142: the notice that an occurrence is; STARTED is none. -/
def Occurrence.notice : Occurrence → Option Notice
  | .started => none
  | .committed => some .committed
  | .held => some .held
  | .released => some .released
  | .period => some .period
  | .markA => some .markA
  | .markB => some .markB
  | .done => some .done
  | .lapsed => some .lapsed

/-- R40: the record event that an occurrence is; COMMITTED, RELEASED, HELD and LAPSED go to no link. -/
def Occurrence.event : Occurrence → Option SourceEvent
  | .started => some .started
  | .period => some .period
  | .markA => some .markA
  | .markB => some .markB
  | .done => some .done
  | .committed | .held | .released | .lapsed => none

/-- R144: occurrences are offered to the record's notice sets in the order they were raised. -/
def Record.offerAll (r : Record) (occ : List Occurrence) : Record :=
  occ.foldl (fun r o => match o.notice with | some n => r.offer n | none => r) r

/-- R40: the events among occurrences, in the order they were raised. -/
def eventsOf (occ : List Occurrence) : List SourceEvent :=
  occ.filterMap Occurrence.event

/-- R150: ATTN is asserted exactly when an agent whose attention is enabled owns a record with a notice pending. -/
def State.attn (s : State) : Bool :=
  (List.finRange 32).any fun i =>
    match s.slots[i].record with
    | some r => s.sessions[r.owner].attention && r.pendingSet != 0
    | none => false

/-- R171: the request slot field of the status byte. -/
def RequestSlot.code : RequestSlot → Nat
  | .empty => 0
  | .queued _ => 1
  | .active _ => 2
  | .sweepQueued | .sweepActive => 3

/-- R171: the status byte of an agent. -/
def State.statusByte (s : State) (a : Agent) : Byte :=
  let p := s.ports[a]
  toByte (p.request.code + 4 * p.response.isSome.toNat + 8 * p.overrun.toNat + 16 * p.lost.toNat +
    32 * p.crcError.toNat + 64 * p.frameError.toNat + 128 * s.attn.toNat)

/-- R171: each flag shown set in a status byte is cleared. -/
def Port.clearShown (p : Port) (captured : Byte) : Port :=
  { p with
    overrun := p.overrun && !captured.getLsbD 3
    lost := p.lost && !captured.getLsbD 4
    crcError := p.crcError && !captured.getLsbD 5
    frameError := p.frameError && !captured.getLsbD 6 }

end Sys2Proof.Machine
end

