-- ==== Sys2Proof/Machine/Waveform.lean ====
section
/-! DEFINITION. What a record does by itself: its rest and start levels, starting, stopping, the compare, the boundary
work, the taking of a tick, and its held mark (chapters 1 to 3 and 6). Each operation answers the record afterwards and
what occurred, in the order it was raised; nothing has been offered to the notice sets yet. -/

namespace Sys2Proof.Machine

/-! ## Kinds -/

/-- Table 0-2: any kind other than LEVEL. -/
def Kind.timed : Kind → Bool
  | .level => false
  | _ => true

/-- Table 0-2: TOGGLE_AT, PULSE_TRAIN and PWM. -/
def Kind.periodic : Kind → Bool
  | .toggleAt | .pulseTrain | .pwm => true
  | _ => false

/-- Table 0-2: SET_AT, CLEAR_AT and PULSE_ONCE. -/
def Kind.oneShot : Kind → Bool
  | .setAt | .clearAt | .pulseOnce => true
  | _ => false

/-- R7: the kinds with a mark B and a phase. -/
def Kind.hasMarkB : Kind → Bool
  | .pulseOnce | .pulseTrain => true
  | _ => false

/-- R7: the kinds with a level field. -/
def Kind.hasLevel : Kind → Bool
  | .level | .toggleAt => true
  | _ => false

/-! ## Levels -/

/-- R5: the rest level. -/
def Record.restLevel (r : Record) : Bool :=
  match r.kind with
  | .clearAt => true
  | .toggleAt => r.level
  | _ => false

/-- R42: the start level. -/
def Record.startLevel (r : Record) : Bool :=
  match r.kind with
  | .level => r.level
  | .setAt => false
  | .clearAt => true
  | .toggleAt => r.level
  | .pulseOnce => false
  | .pulseTrain => false
  | .pwm => r.timing.markA != 0

/-! ## The compare (2.6) -/

/-- R43: a mark is matched when it equals the counter; a mark equal to or greater than the live period never is. -/
def Record.meets (r : Record) (mark : Word) : Bool :=
  decide (mark < r.timing.period) && r.counter == mark

/-- R44 to R49: the compare for the counter value the record holds. LEVEL records make none. -/
def Record.compare (r : Record) : Record × List Occurrence :=
  match r.kind with
  | .level => (r, [])
  | .setAt =>
    if r.meets r.timing.markA then ({ r with output := true, state := .done }, [.markA, .done]) else (r, [])
  | .clearAt =>
    if r.meets r.timing.markA then ({ r with output := false, state := .done }, [.markA, .done]) else (r, [])
  | .toggleAt =>
    if r.meets r.timing.markA then ({ r with output := !r.output }, [.markA]) else (r, [])
  | .pulseOnce =>
    match r.phase with
    | .waitA =>
      if r.meets r.timing.markA then ({ r with output := true, phase := .waitB }, [.markA]) else (r, [])
    | .waitB =>
      if r.meets r.timing.markB then
        if r.rearm then
          ({ r with output := false, phase := .waitA, state := .armed, counter := 0 }, [.markB, .done])
        else ({ r with output := false, phase := .waitA, state := .done }, [.markB, .done])
      else (r, [])
  | .pulseTrain =>
    match r.phase with
    | .waitA =>
      if r.meets r.timing.markA then ({ r with output := true, phase := .waitB }, [.markA]) else (r, [])
    | .waitB =>
      if r.meets r.timing.markB then ({ r with output := false, phase := .waitA }, [.markB]) else (r, [])
  | .pwm =>
    if r.counter = 0 then ({ r with output := r.timing.markA != 0 }, [])
    else if r.meets r.timing.markA then ({ r with output := false }, [.markA])
    else (r, [])

/-! ## Starting (2.5) -/

/-- R41: a start. Timed kinds make the start compare. -/
def Record.begin (r : Record) : Record × List Occurrence :=
  let r' := { r with state := .running, counter := 0, phase := .waitA, output := r.startLevel, groupWait := none }
  let c := r'.compare
  (c.1, .started :: c.2)

/-! ## Staged copies and owed releases -/

/-- R61: a staged copy, if present, becomes the live timing and COMMITTED occurs. -/
def Record.commit (r : Record) : Record × List Occurrence :=
  match r.staged with
  | some t => ({ r with timing := t, staged := none }, [.committed])
  | none => (r, [])

/-- R123: an owed release, if any, is paid: held is cleared and RELEASED occurs. -/
def Record.payRelease (r : Record) : Record × List Occurrence :=
  match r.held with
  | .owed => ({ r with held := .clear }, [.released])
  | _ => (r, [])

/-- R123: a release that becomes owed is paid at once, except by a RUNNING record of a periodic kind. -/
def Record.oweRelease (r : Record) : Record × List Occurrence :=
  match r.held with
  | .held =>
    if r.state = .running ∧ r.kind.periodic = true then ({ r with held := .owed }, [])
    else ({ r with held := .clear }, [.released])
  | _ => (r, [])

/-- R120: a hold reaches the record. -/
def Record.takeHold (r : Record) : Record × List Occurrence :=
  match r.held with
  | .clear => ({ r with held := .held }, [.held])
  | .owed => ({ r with held := .held }, [])
  | .held => (r, [])

/-- R99: the held re-evaluation, from whether the record was under force before the change and is after it. -/
def Record.reevaluate (r : Record) (before after : Bool) : Record × List Occurrence :=
  match before, after with
  | false, true => r.takeHold
  | true, false => r.oweRelease
  | _, _ => (r, [])

/-! ## Stopping -/

/-- R54, R63, R84, R123: a RUNNING, ARMED or DONE record goes to IDLE. A pending cue is not touched here. -/
def Record.toIdle (r : Record) : Record × List Occurrence :=
  let c := r.commit
  let p := c.1.payRelease
  ({ p.1 with
      state := .idle, counter := 0, phase := .waitA, output := p.1.restLevel, groupWait := none }, c.2 ++ p.2)

/-- R54: what a STOP request, and PARK (R137), does to a record in any state. -/
def Record.halt (r : Record) : Record × List Occurrence :=
  let c := if r.state = .idle then (r, []) else r.toIdle
  ({ c.1 with groupWait := none, cue := none }, c.2)

/-! ## Taking a tick (2.4) -/

/-- R38: the boundary work, before the compare at counter 0. -/
def Record.boundary (r : Record) : Record × List Occurrence :=
  let c := r.commit
  let p := c.1.payRelease
  (p.1, c.2 ++ p.2 ++ [.period])

/-- R38, R39: the counter is at 0 by a boundary: the boundary work, then the compare. -/
def Record.cross (r : Record) : Record × List Occurrence :=
  let b := { r with counter := 0 }.boundary
  let c := b.1.compare
  (c.1, b.2 ++ c.2)

/-- R37, R36 steps 3 and 4: a RUNNING record of a timed kind advances; any other ends its taking of the tick. -/
def Record.advance (r : Record) : Record × List Occurrence :=
  if r.state = .running ∧ r.kind.timed = true then
    if r.counter.toNat + 1 < r.timing.period.toNat then { r with counter := r.counter + 1 }.compare
    else r.cross
  else (r, [])

/-- R84: the record takes a cue, already removed from it; an ignored cue lets the record go on to its advance. -/
def Record.takeCue (r : Record) (a : CueAction) : Record × List Occurrence :=
  match a, r.state with
  | .start, .armed | .start, .done => r.begin
  | .stop, .running | .stop, .armed => r.toIdle
  | .align, .running => if r.kind.timed then r.cross else r.advance
  | _, _ => r.advance

/-- R36: a record takes a tick of its base; `latch` is the base's latch. -/
def Record.takeTick (r : Record) (latch : Bool) : Record × List Occurrence :=
  if latch = true ∧ r.groupWait = some r.base then r.begin
  else
    match r.cue with
    | some c => { r with cue := none }.takeCue c.action
    | none => r.advance

/-- The record once what occurred has been offered to its notice sets (R144). -/
def settled (x : Record × List Occurrence) : Record :=
  x.1.offerAll x.2

end Sys2Proof.Machine
end

