-- ==== Sys2Proof/Machine/Ops.lean ====
section
/-! DEFINITION. The named operations over the state that the meanings share: access to each table, what a pin shows,
the delivery of cues, holds and releases, retirement, the request and response slots, the arbiter and the checks. -/

namespace Sys2Proof.Machine

/-! ## Changing one entry of a table -/

/-- Slot `i` of the record table replaced. -/
def State.setSlot (s : State) (i : SlotIx) (x : Slot) : State :=
  { s with slots := put s.slots i x }

/-- Time base `b` replaced. -/
def State.setBase (s : State) (b : Base) (x : TimeBase) : State :=
  { s with bases := put s.bases b x }

/-- Entry `i` of the link pool replaced. -/
def State.setLink (s : State) (i : LinkIx) (x : Option Link) : State :=
  { s with links := put s.links i x }

/-- Pin `p`'s entry replaced. -/
def State.setPin (s : State) (p : Pin) (x : PinEntry) : State :=
  { s with pins := put s.pins p x }

/-- Agent `a`'s session replaced. -/
def State.setSession (s : State) (a : Agent) (x : Session) : State :=
  { s with sessions := put s.sessions a x }

/-- Agent `a`'s port replaced. -/
def State.setPort (s : State) (a : Agent) (x : Port) : State :=
  { s with ports := put s.ports a x }

/-- An inhibit group. -/
def State.group (s : State) : Group → InhibitGroup
  | .a => s.groupA
  | .b => s.groupB

/-- An inhibit group replaced. -/
def State.setGroup (s : State) (g : Group) (x : InhibitGroup) : State :=
  match g with
  | .a => { s with groupA := x }
  | .b => { s with groupB := x }

/-- The operation in progress replaced. -/
def State.setOp (s : State) (op : Option Operation) : State :=
  { s with engine := { s.engine with op := op } }

/-! ## Records by handle -/

/-- R2: the record a handle names, if the handle is current. -/
def State.record? (s : State) (h : Handle) : Option Record :=
  if s.slots[h.slot].gen = h.gen then s.slots[h.slot].record else none

/-- The record in a slot replaced; the slot's generation is kept. -/
def State.setRecord (s : State) (i : SlotIx) (r : Record) : State :=
  s.setSlot i { gen := s.slots[i].gen, record := some r }

/-- R2: the handle of the record a slot holds. -/
def State.handleAt (s : State) (i : SlotIx) : Handle where
  gen := s.slots[i].gen
  slot := i

/-- A change made to every record of the table as one event. -/
def State.mapRecords (s : State) (f : Record → Record) : State :=
  { s with slots := tab fun i => { s.slots[i] with record := s.slots[i].record.map f } }

/-- How many records have a property. -/
def State.countRecords (s : State) (p : Record → Bool) : Nat :=
  (List.finRange 32).countP fun i => s.slots[i].record.any p

/-! ## Pins (5.2) -/

/-- R114: a group is forcing while it is ACTIVE or LATCHED. -/
def InhibitGroup.forcing (g : InhibitGroup) : Bool :=
  g.state != .clear

/-- R93 row 2: whether the pin's group is forcing. -/
def State.pinForced (s : State) (p : Pin) : Bool :=
  match s.pins[p].config.group with
  | some g => (s.group g).forcing
  | none => false

/-- R99: whether a record that claims this pin, or none, is under force. -/
def State.underForce (s : State) (p : Option Pin) : Bool :=
  match p with
  | some p => s.pinForced p
  | none => false

/-- R93: the resolved value of an idle level or safe action; FLOAT resolves to none. -/
def PinLevel.value : PinLevel → Option Bool
  | .low => some false
  | .high => some true
  | .float => none

/-- R93: the resolved value of a pin, none for FLOAT. -/
def State.resolved (s : State) (p : Pin) : Option Bool :=
  let e := s.pins[p]
  if e.config.role = .output then
    if s.pinForced p then e.config.safe.value
    else
      match e.claim.bind s.record? with
      | some r => if r.held = .clear then some (r.output != r.invert) else e.config.safe.value
      | none => e.config.idle.value
  else none

/-- R94: the shown level of a pin. -/
def State.shown (s : State) (p : Pin) : Shown :=
  match s.resolved p, s.pins[p].config.drive with
  | some false, _ => .drives0
  | some true, .pushPull => .drives1
  | some true, .openDrain => .released
  | none, _ => .released

/-- R91, R94, R109: the level at a pin: what the board puts on it, or else what the part drives, or else its pull; a
pin that nothing drives and nothing pulls has a free level. -/
def State.levelAt (s : State) (p : Pin) : Bool :=
  match s.pins[p].board with
  | some v => v
  | none =>
    match s.shown p with
    | .drives0 => false
    | .drives1 => true
    | .released =>
      match s.pins[p].config.pull with
      | .up => true
      | .down => false
      | .none => Config.floatingLevel s.draws p.val

/-- R91: whether an agent holds a grant for a pin; agent 0 holds every one. -/
def State.granted (s : State) (a : Agent) (p : Pin) : Bool :=
  a == 0 || s.pins[p].grants.getLsbD a.val

/-- R102: the claim of a pin replaced. -/
def State.setClaim (s : State) (p : Pin) (c : Option Handle) : State :=
  s.setPin p { s.pins[p] with claim := c }

/-- R103: the claim conditions for a pin and the owner of the record. -/
def State.claimCheck (s : State) (a : Agent) (p : Pin) : Except Status Unit :=
  if s.pins[p].config.role ≠ .output then .error .pinBusy
  else if s.granted a p = false then .error .pinDenied
  else if s.pins[p].claim.isSome then .error .pinBusy
  else .ok ()

/-! ## Links and cues (4.4) -/

/-- R70: the ordered list of a source; a stale record has none. -/
def State.linkList (s : State) : LinkSource → List LinkIx
  | .record h => match s.record? h with | some r => r.outgoing | none => []
  | .pin p => s.pins[p].links

/-- R70: the ordered list of a source replaced; a stale record has none to replace. -/
def State.setLinkList (s : State) (src : LinkSource) (l : List LinkIx) : State :=
  match src with
  | .record h => match s.record? h with | some r => s.setRecord h.slot { r with outgoing := l } | none => s
  | .pin p => s.setPin p { s.pins[p] with links := l }

/-- R70: a link is freed: it leaves its source's list, the links behind it keep their order, and its entry is free. -/
def State.freeLink (s : State) (i : LinkIx) : State :=
  match s.links[i] with
  | some l => (s.setLinkList l.source ((s.linkList l.source).filter (· != i))).setLink i none
  | none => s

/-- R16: whether a link names a handle as its source or its target. -/
def Link.names (l : Link) (h : Handle) : Bool :=
  l.source == .record h || l.target == h

/-- R16: one entry of the pool is freed if it names the handle. -/
def State.freeIfNames (s : State) (h : Handle) (i : LinkIx) : State :=
  match s.links[i] with
  | some l => if l.names h then s.freeLink i else s
  | none => s

/-- R16: every link that names the handle is freed, in index order. -/
def State.freeNaming (s : State) (h : Handle) : State :=
  (List.finRange 64).foldl (fun t i => t.freeIfNames h i) s

/-- R80, R81: a cue is delivered to a target; a stale target takes none, and a cue over a pending one raises
CUE_LOST. -/
def State.deliver (s : State) (target : Handle) (c : Cue) : State :=
  match s.record? target with
  | some r =>
    let r' := { r with cue := some c }
    s.setRecord target.slot (if r.cue.isSome then r'.offer .cueLost else r')
  | none => s

/-- R83: whether a link's source event matches an event of its source. -/
def SourceEvent.matches (want got : SourceEvent) : Bool :=
  want == got || (want == .either && (got == .rise || got == .fall))

/-- R79: one link of a walk: an enabled link whose source event matches delivers its cue. -/
def State.walkLink (s : State) (ev : SourceEvent) (i : LinkIx) : State :=
  match s.links[i] with
  | some l =>
    if l.enabled && l.event.matches ev then s.deliver l.target { action := l.action, link := i } else s
  | none => s

/-- R79: the walk of a source's list, from first to last, for one event. -/
def State.walk (s : State) (src : LinkSource) (ev : SourceEvent) : State :=
  (s.linkList src).foldl (fun t i => t.walkLink ev i) s

/-- R82: the events of one record, walked one after another. -/
def State.walkEvents (s : State) (h : Handle) (evs : List SourceEvent) : State :=
  evs.foldl (fun t ev => t.walk (.record h) ev) s

/-- R40, R157: a request acts on the record of a current handle: the record becomes `x.1`, what occurred is offered to
its notice sets, and its events walk its links. -/
def State.occur (s : State) (h : Handle) (x : Record × List Occurrence) : State :=
  (s.setRecord h.slot (settled x)).walkEvents h (eventsOf x.2)

/-! ## Orders that the manual does not fix -/

/-- R82: events of several sources, each source's in its own order, in whichever order between the sources the free
value gives. -/
def interleave {α : Type} (pick : Nat → Nat) : Nat → List (List α) → List α
  | 0, _ => []
  | _ + 1, [] => []
  | _ + 1, [q] => q
  | n + 1, q :: q' :: qs =>
    let all := q :: q' :: qs
    let k := pick n % all.length
    match all[k]? with
    | some (x :: y :: rest) => x :: interleave pick n (all.set k (y :: rest))
    | some [x] => x :: interleave pick n (all.eraseIdx k)
    | _ => interleave pick n (all.eraseIdx k)

/-- The next free value is another one. -/
def State.draw (s : State) : State :=
  { s with draws := s.draws + 1 }

/-- R82: the waiting events of several sources in an order the manual does not fix. -/
def State.anyOrder {α : Type} (s : State) (qs : List (List α)) : List α :=
  interleave (Config.pick s.draws) (qs.map fun q => q.length + 1).sum qs

/-! ## Ticks (2.4) -/

/-- R35: the records of a base, each with what its taking of the tick gives. -/
def State.takings (s : State) (b : Base) : List (SlotIx × (Record × List Occurrence)) :=
  (List.finRange 32).filterMap fun i =>
    match s.slots[i].record with
    | some r => if r.base = b then some (i, r.takeTick s.bases[b].latch) else none
    | none => none

/-- R35, R36: every record on the base takes the tick as one event, each at its own slot. -/
def State.takeAll (s : State) (b : Base) : State :=
  s.mapRecords fun r => if r.base = b then settled (r.takeTick s.bases[b].latch) else r

/-- R27: the base's tick itself: a CORE base's count starts again with the divisor it holds; R26, R89: the tick clears
the latch. -/
def TimeBase.ticked (t : TimeBase) : TimeBase :=
  { t with
    latch := false
    interval := match t.source with | .core => some { count := 0, inForce := t.divisor } | .pin _ _ => none }

/-- The events that the takings of one tick raise, a queue for each record that raises any. -/
def State.tickQueues (s : State) (b : Base) : List (List (Handle × SourceEvent)) :=
  ((s.takings b).map fun x => (eventsOf x.2.2).map fun ev => (s.handleAt x.1, ev)).filter fun q => !q.isEmpty

/-- R35, R36, R82, R89: a RUNNING base's tick: every record takes it, the latch clears, and the events raised are then
walked, each record's in its own order. -/
def State.tickBase (s : State) (b : Base) : State :=
  let order := s.anyOrder (s.tickQueues b)
  let t := ((s.takeAll b).setBase b s.bases[b].ticked).draw
  order.foldl (fun u x => u.walk (.record x.1) x.2) t

/-! ## Holds and releases (6.4) -/

/-- Whether the record's claimed pin has this group. -/
def State.inGroup (s : State) (g : Group) (r : Record) : Bool :=
  match r.pin with
  | some p => s.pins[p].config.group == some g
  | none => false

/-- R120: the group begins forcing: every record whose claimed pin has the group takes the hold, as one event. -/
def State.holdAll (s : State) (g : Group) : State :=
  s.mapRecords fun r => if s.inGroup g r then settled r.takeHold else r

/-- R122: the group ends forcing: every held record whose claimed pin has the group is owed a release. -/
def State.releaseAll (s : State) (g : Group) : State :=
  s.mapRecords fun r => if s.inGroup g r then settled r.oweRelease else r

/-- R116: the state of a group replaced; CLEAR to forcing is handed on as a hold, forcing to CLEAR as a release. -/
def State.setGroupState (s : State) (g : Group) (x : GroupState) : State :=
  let before := (s.group g).forcing
  let t := s.setGroup g { s.group g with state := x }
  let after := (t.group g).forcing
  match before, after with
  | false, true => t.holdAll g
  | true, false => t.releaseAll g
  | _, _ => t

/-! ## Retirement (1.6) -/

/-- R15: the first step of a retirement empties the slot in one change; the claim goes with it. -/
def State.emptySlot (s : State) (i : SlotIx) : State :=
  match s.slots[i].record with
  | some r =>
    let t := match r.pin with | some p => s.setClaim p none | none => s
    t.setSlot i { gen := s.slots[i].gen + 1, record := none }
  | none => s

/-- R17: a retirement made by one visit of a long operation: the slot is emptied and its links are freed. -/
def State.retireSlot (s : State) (i : SlotIx) : State :=
  match s.slots[i].record with
  | some _ => (s.emptySlot i).freeNaming (s.handleAt i)
  | none => s

/-! ## Lease timers (7.5) -/

/-- R128: the full interval of a lease, in core-clock periods. -/
def Session.fullInterval (x : Session) : Nat :=
  x.lease.toNat * Config.leaseUnit

/-- R134: a lease timer runs while its session is OPEN, its interval is not 0 and its request slot is EMPTY. -/
def State.timerRuns (s : State) (a : Agent) : Bool :=
  s.sessions[a].state == .opened && s.sessions[a].lease != 0 && s.ports[a].request == .empty

/-- R134: the lease timer set to the full interval, as at the posting of a response. -/
def State.restartLease (s : State) (a : Agent) : State :=
  s.setSession a { s.sessions[a] with timer := s.sessions[a].fullInterval }

/-! ## The arbiter and the slots (9.2, 9.3) -/

/-- R156: the request slot of an agent as the arbiter's choice leaves it; absent when it holds nothing to choose. -/
def RequestSlot.chosen : RequestSlot → Option (RequestSlot × Bool)
  | .queued f => some (.active f, false)
  | .sweepQueued => some (.sweepActive, true)
  | _ => none

/-- R156: the order of the arbiter's search, beginning after the last-served agent. -/
def searchOrder (last : Agent) : List Agent :=
  [last + 1, last + 2, last + 3, last]

/-- R156: the slot is chosen and the engine becomes busy with it. -/
def State.choose (s : State) (a : Agent) (slot : RequestSlot) (sweep : Bool) : State :=
  let t := s.setPort a { s.ports[a] with request := slot }
  { t with engine := { t.engine with op := some { agent := a, sweep := sweep, work := .chosen }, lastServed := a } }

/-- R156: whenever the engine is idle and a slot is queued, the arbiter chooses the next operation. -/
def State.arbitrate (s : State) : State :=
  match s.engine.op with
  | some _ => s
  | none =>
    match (searchOrder s.engine.lastServed).find? fun a => (s.ports[a].request.chosen).isSome with
    | some a =>
      match s.ports[a].request.chosen with
      | some (slot, sweep) => s.choose a slot sweep
      | none => s
    | none => s

/-- R161: the posting of a response, before the arbiter's next choice: the response slot is READY, the request slot
EMPTY, the engine idle, and the lease timer at its full interval. -/
def State.posted (s : State) (a : Agent) (r : Response) : State :=
  ((s.setPort a { s.ports[a] with request := .empty, response := some r }).restartLease a).setOp none

/-- R161: the engine posts a response, and the arbiter then chooses the next operation. -/
def State.post (s : State) (a : Agent) (r : Response) : State :=
  (s.posted a r).arbitrate

/-- R155: a request frame arrives at its agent's request slot. -/
def State.arrive (s : State) (a : Agent) (f : Frame) : State :=
  let p := s.ports[a]
  match p.request with
  | .empty =>
    (s.setPort a { p with
      request := .queued f, response := none, lost := p.lost || p.response.isSome }).arbitrate
  | _ => s.setPort a { p with overrun := true }

/-- R133 step 2, R164 step 1: the agent's request slot is emptied; a discarded request is answered with the status. -/
def State.discard (s : State) (a : Agent) (st : Status) : State :=
  let p := s.ports[a]
  match p.request with
  | .queued f => s.setPort a { p with request := .empty, response := some (f.refusal st) }
  | .sweepQueued => s.setPort a { p with request := .empty }
  | _ => s

/-- R133 step 1, R164 step 1: the agent's lease interval becomes 0 and its timer is stopped. -/
def State.endLease (s : State) (a : Agent) : State :=
  s.setSession a { s.sessions[a] with lease := 0, timer := 0 }

/-- R132, R133, R164: the session becomes CLOSED, with no lease and attention disabled. -/
def State.closeSession (s : State) (a : Agent) : State :=
  s.setSession a { state := .closed, lease := 0, timer := 0, attention := false }

/-! ## Carrying out a request (9.4) -/

/-- R157, R162: what the carrying out of a request comes to: an answer with its data, or a long operation begun. -/
inductive Reply where
  | answered (s : State) (data : List Byte)
  | begun (s : State)
  deriving DecidableEq, Repr

/-- A check that must hold, with the status it gives where it fails. -/
def require (st : Status) (ok : Bool) : Except Status Unit :=
  if ok then .ok () else .error st

/-- R158 check 5: a parameter that must be in its range. -/
def field {α : Type} (o : Option α) : Except Status α :=
  match o with
  | some x => .ok x
  | none => .error .badValue

/-- R158 check 6: a handle that must be current. -/
def State.current (s : State) (h : Handle) : Except Status Record :=
  match s.record? h with
  | some r => .ok r
  | none => .error .staleHandle

/-- R158 check 7: the requester is the supervisor or owns the record. -/
def ownedBy (a : Agent) (r : Record) : Bool :=
  a == 0 || r.owner == a

/-- R158 checks 5 to 7 for a request that changes the record a 16-bit handle field names. -/
def State.ownRecord (s : State) (a : Agent) (h : Handle) : Except Status Record := do
  let r ← s.current h
  require .notOwner (ownedBy a r)
  return r

/-- R158 checks 1, 3 and 4, and R159: the checks that do not look at the fields of the parameters. -/
def State.allow (s : State) (a : Agent) (c : ReqCode) (p : List Byte) : Except Status Unit := do
  require .noSession (c == .openSession || s.sessions[a].state == .opened)
  require .badLength (c.lengthOk p)
  require .privilege (!c.sup || a == 0)

/-- R152: the agent and the frame of the request that the arbiter has chosen and whose checks have not been made. -/
def State.serving (s : State) : Option (Agent × Frame) :=
  match s.engine.op with
  | some { agent := a, sweep := false, work := .chosen } =>
    match s.ports[a].request with
    | .active f => some (a, f)
    | _ => none
  | _ => none

/-- R157, R160, R161: the request ends with its answer or its refusal posted, or goes on as a long operation. A refused
request leaves the state that the engine found. -/
def State.conclude (s : State) (a : Agent) (f : Frame) (v : Except Status Reply) : State :=
  match v with
  | .ok (.answered t data) => t.post a (f.answer data)
  | .ok (.begun t) => t
  | .error st => s.post a (f.refusal st)

/-- The engine carries out the request it is serving, if that request has this code: its checks in the order of R158,
its changes and its answer, as one change. While the engine serves no such request the command cannot occur, and the
state is as it was (log entry 2). -/
def State.carryOut (s : State) (c : ReqCode) (body : Agent → List Byte → State → Except Status Reply) : State :=
  let t := s.arbitrate
  match t.serving with
  | some (a, f) =>
    if f.code = c.byte then
      t.conclude a f (match t.allow a c f.params with | .ok _ => body a f.params t | .error st => .error st)
    else s
  | none => s

/-- R162: the long operation goes on with its next visit. -/
def State.setWork (s : State) (w : Work) : State :=
  match s.engine.op with
  | some o => s.setOp (some { o with work := w })
  | none => s

/-- R162: the agent of a long operation in progress, its frame, and how far it has come. -/
def State.working (s : State) : Option (Agent × Frame × Work) :=
  match s.engine.op with
  | some { agent := a, sweep := false, work := w } =>
    match s.ports[a].request with
    | .active f => some (a, f, w)
    | _ => none
  | _ => none

/-- R162: the slot of the visit after this one; absent after slot 31. -/
def nextSlot (i : SlotIx) : Option SlotIx :=
  if h : i.val + 1 < 32 then some ⟨i.val + 1, h⟩ else none

/-- R162: the link entry of the visit after this one; absent after entry 63. -/
def nextEntry (i : LinkIx) : Option LinkIx :=
  if h : i.val + 1 < 64 then some ⟨i.val + 1, h⟩ else none

end Sys2Proof.Machine
end

