-- ==== Sys2Proof/Machine/BaseCommands.lean ====
section
/-! DEFINITION. SET_TIMEBASE, RUN_TIMEBASE, HALT_TIMEBASE, SET_DIVISOR and READ_TIMEBASE (chapter 2). -/

namespace Sys2Proof.Machine

/-- R178: a divisor is carried as the divisor less 1. -/
def divisorAt (p : List Byte) (i : Nat) : Nat :=
  (wordAt p i).toNat + 1

/-- R30: the count pin of a PIN source has role COUNT_INPUT. -/
def State.countable (s : State) : Source → Bool
  | .core => true
  | .pin q _ => s.pins[q].config.role == .countInput

/-- R30: SET_TIMEBASE gives a STOPPED base its source and settings; run state and latch are kept. -/
def setTimebaseBody (_ : Agent) (p : List Byte) (s : State) : Except Status Reply := do
  let b ← field (baseOfByte (byteAt p 0))
  let src ← field (sourceOfFields (byteAt p 1) (divisorAt p 2) (byteAt p 4) (byteAt p 5))
  require .badState (!s.bases[b].running)
  require .badState (s.countable src)
  return .answered (s.setBase b { s.bases[b] with source := src, divisor := divisorAt p 2 }) []

/-- SET_TIMEBASE (R30). -/
def execSetTimebase (s : State) : Host.Outcome State Fault Refusal :=
  .next (s.carryOut .setTimebase setTimebaseBody)

/-- R31: a STOPPED base is set RUNNING, a CORE base with its count at 0; a RUNNING one is left as it is. -/
def TimeBase.run (t : TimeBase) : TimeBase :=
  if t.running then t
  else
    { t with
      running := true
      interval := match t.source with | .core => some { count := 0, inForce := t.divisor } | .pin _ _ => none }

/-- R31: RUN_TIMEBASE. -/
def runTimebaseBody (_ : Agent) (p : List Byte) (s : State) : Except Status Reply := do
  let b ← field (baseOfByte (byteAt p 0))
  return .answered (s.setBase b s.bases[b].run) []

/-- RUN_TIMEBASE (R31). -/
def execRunTimebase (s : State) : Host.Outcome State Fault Refusal :=
  .next (s.carryOut .runTimebase runTimebaseBody)

/-- R32: a base is set STOPPED and discards its interval count; the latch is kept. -/
def TimeBase.halt (t : TimeBase) : TimeBase :=
  { t with running := false, interval := none }

/-- R32: HALT_TIMEBASE. -/
def haltTimebaseBody (_ : Agent) (p : List Byte) (s : State) : Except Status Reply := do
  let b ← field (baseOfByte (byteAt p 0))
  return .answered (s.setBase b s.bases[b].halt) []

/-- HALT_TIMEBASE (R32). -/
def execHaltTimebase (s : State) : Host.Outcome State Fault Refusal :=
  .next (s.carryOut .haltTimebase haltTimebaseBody)

/-- R33: SET_DIVISOR replaces a CORE base's divisor; the interval in progress keeps the one it began with. -/
def setDivisorBody (_ : Agent) (p : List Byte) (s : State) : Except Status Reply := do
  let b ← field (baseOfByte (byteAt p 0))
  require .badState (s.bases[b].source == .core)
  return .answered (s.setBase b { s.bases[b] with divisor := divisorAt p 1 }) []

/-- SET_DIVISOR (R33). -/
def execSetDivisor (s : State) : Host.Outcome State Fault Refusal :=
  .next (s.carryOut .setDivisor setDivisorBody)

/-- R34, R179: the eight data bytes of READ_TIMEBASE. -/
def State.baseBytes (s : State) (b : Base) : List Byte :=
  let t := s.bases[b]
  let src : Nat × Nat × Nat := match t.source with | .core => (0, 255, 0) | .pin q d => (1, q.val, edgeCode d)
  [toByte src.1] ++ wordBytes (t.divisor - 1) ++
    [toByte src.2.1, toByte src.2.2, toByte t.running.toNat, toByte t.latch.toNat,
      toByte (s.countRecords fun r => r.base == b)]

/-- R34: READ_TIMEBASE changes nothing. -/
def readTimebaseBody (_ : Agent) (p : List Byte) (s : State) : Except Status Reply := do
  let b ← field (baseOfByte (byteAt p 0))
  return .answered s (s.baseBytes b)

/-- READ_TIMEBASE (R34). -/
def execReadTimebase (s : State) : Host.Outcome State Fault Refusal :=
  .next (s.carryOut .readTimebase readTimebaseBody)

end Sys2Proof.Machine
end

