-- ==== Sys2Proof/Machine/DeviceCommands.lean ====
section
/-! DEFINITION. UNKNOWN_REQUEST, RESTART, RESTART_VISIT and READ_DEVICE (chapter 9). -/

namespace Sys2Proof.Machine

/-- UNKNOWN_REQUEST (R158 checks 1 and 2): a request whose code is not in the request table is refused; an agent whose
session is not OPEN is told NO_SESSION first. -/
def execUnknownRequest (s : State) : Host.Outcome State Fault Refusal :=
  .next
    (let t := s.arbitrate
    match t.serving with
    | some (a, f) =>
      if knownCode f.code then s
      else
        t.conclude a f
          (.error (if t.sessions[a].state = .opened then .unknownRequest else .noSession))
    | none => s)

/-- The agents that a RESTART discards for and closes, in agent order (R164). -/
def otherAgents : List Agent :=
  [1, 2, 3]

/-- R164 step 1 for one agent. -/
def State.restartAgent (s : State) (a : Agent) : State :=
  (s.endLease a).discard a .restarted

/-- R164 step 5: the agents whose queued requests a RESTART discards, bit `a` for agent `a`. -/
def State.queuedAgents (s : State) : BitVec 4 :=
  otherAgents.foldl
    (fun x a => match s.ports[a].request with | .queued _ => x ||| (1#4 <<< a.val) | _ => x) 0

/-- R164 step 1: RESTART discards what agents 1 to 3 have queued, and begins its visits. -/
def restartBody (_ : Agent) (_ : List Byte) (s : State) : Except Status Reply :=
  let t := otherAgents.foldl State.restartAgent s
  .ok (.begun (t.setWork (.restarting s.queuedAgents 0 0)))

/-- RESTART (R164). -/
def execRestart (s : State) : Host.Outcome State Fault Refusal :=
  .next (s.carryOut .restart restartBody)

/-- R164 step 3: a base is set STOPPED, its interval count discarded and its latch cleared; its settings are kept. -/
def TimeBase.restarted (t : TimeBase) : TimeBase :=
  { t with running := false, latch := false, interval := none }

/-- R164 steps 3 to 5, before the response is posted. -/
def State.restarted (s : State) : State :=
  let t := { s with bases := tab fun b => s.bases[b].restarted }
  let u := otherAgents.foldl State.closeSession t
  { u with engine := { u.engine with cause := .restart } }

/-- RESTART_VISIT (R164, R162): one record is retired, of any owner; after slot 31 steps 3 to 5 follow. The bits of the
second data byte that name no agent are sent as 0 (DESIGN CHOICE, log entry 26). -/
def execRestartVisit (s : State) : Host.Outcome State Fault Refusal :=
  .next
    (match s.working with
    | some (a, f, .restarting discarded i n) =>
      let n' := n + s.slots[i].record.isSome.toNat
      let t := s.retireSlot i
      match nextSlot i with
      | some j => t.setWork (.restarting discarded j n')
      | none => t.restarted.post a (f.answer [toByte n', discarded.setWidth 8])
    | _ => s)

/-- R166, R179: the nine data bytes of READ_DEVICE. -/
def State.deviceBytes (s : State) : List Byte :=
  wordBytes Config.partCode.toNat ++ [Config.revision, 32, 64, 24, 4, 4, toByte s.engine.cause.code]

/-- R166: READ_DEVICE changes nothing. -/
def readDeviceBody (_ : Agent) (_ : List Byte) (s : State) : Except Status Reply :=
  .ok (.answered s s.deviceBytes)

/-- READ_DEVICE (R166). -/
def execReadDevice (s : State) : Host.Outcome State Fault Refusal :=
  .next (s.carryOut .readDevice readDeviceBody)

end Sys2Proof.Machine
end

