-- ==== Sys2Proof/Machine/Events.lean ====
section
/-! DEFINITION. TICK, EDGE and OBSERVED_LEVEL_CHANGE, and the core-clock period that passes while no command waits
(2.2, 5.8, 7.5). -/

namespace Sys2Proof.Machine

/-- TICK (R27, R35, R36): a RUNNING base produces a tick; a STOPPED base produces none (R29). A TICK of a PIN base
stands for the tick of a matching edge that is not given as a row EDGE as well (DESIGN CHOICE, log entry 27). -/
def execTick (b : Base) (s : State) : Host.Outcome State Fault Refusal :=
  .next (if s.bases[b].running then s.tickBase b else s)

/-- R110: the level of a pin after an edge. -/
def edgeLevel : EdgeDir → Bool
  | .rising => true
  | .falling => false

/-- R83, R111: the source event that an edge is. -/
def edgeEvent : EdgeDir → SourceEvent
  | .rising => .rise
  | .falling => .fall

/-- R28, R111: whether a base takes this edge of this pin as a tick. -/
def TimeBase.takesEdge (t : TimeBase) (p : Pin) (d : EdgeDir) : Bool :=
  t.running && t.source == .pin p d

/-- R111: an edge of a COUNT_INPUT pin ticks each RUNNING base that counts it; the ticks are separate events, in an
order the manual does not fix. They are made within the row EDGE, and no row TICK follows for them (DESIGN CHOICE, log
entry 27). -/
def State.countEdge (s : State) (p : Pin) (d : EdgeDir) : State :=
  let bases := (List.finRange 4).filter fun b => s.bases[b].takesEdge p d
  (s.anyOrder (bases.map fun b => [b])).foldl State.tickBase s.draw

/-- R110: the filtered level of a pin replaced. -/
def State.setFiltered (s : State) (p : Pin) (v : Bool) : State :=
  s.setPin p { s.pins[p] with filtered := v, narrow := s.pins[p].observed != v }

/-- EDGE (R110 to R113): the filtered level of a pin changes, and the edge is handed on by the pin's role. Edges of one
pin alternate, and none is detected while RESETn is low. -/
def execEdge (p : Pin) (d : EdgeDir) (s : State) : Host.Outcome State Fault Refusal :=
  .next
    (if s.resetn ≠ .high ∨ s.pins[p].filtered = edgeLevel d then s
    else
      let t := s.setFiltered p (edgeLevel d)
      match s.pins[p].config.role with
      | .off | .output => t
      | .cueInput => t.walk (.pin p) (edgeEvent d)
      | .countInput => t.countEdge p d)

/-- OBSERVED_LEVEL_CHANGE (R110): what the board puts on a pin changes (a level, or nothing), and the pin's observed
level is the level now at the pin. The filtered level is left to the filter. -/
def execObservedLevelChange (p : Pin) (board : Option Bool) (s : State) : Host.Outcome State Fault Refusal :=
  .next
    (let t := s.setPin p { s.pins[p] with board := board }
    (t.setPin p { t.pins[p] with observed := t.levelAt p }).draw)

/-! ## The core clock -/

/-- R110: whether the filter gives an edge of the pin at this sample: a change that was there at the last sample holds,
or has reverted and is not passed over. -/
def State.edgeDue (s : State) (p : Pin) : Bool :=
  let e := s.pins[p]
  e.narrow && (s.levelAt p != e.filtered || Config.narrowTaken s.draws p.val)

/-- R110: the edge that leaves the filtered level where it is. -/
def edgeFrom (filtered : Bool) : EdgeDir :=
  if filtered then .falling else .rising

/-- R110: the pin's entry after a sample of its level. -/
def State.sampled (s : State) (p : Pin) : PinEntry :=
  { s.pins[p] with observed := s.levelAt p, narrow := s.levelAt p != s.pins[p].filtered }

/-- R115: the number of a group in the free values. -/
def groupIndex : Group → Nat
  | .a => 0
  | .b => 1

/-- R115: the level of a group's inhibit input at this sample, true for low (FREE VALUE, log entry 17). -/
def State.inhibitAt (s : State) (g : Group) : Bool :=
  Config.inhibitInput s.draws (groupIndex g)

/-- R115: a group after a sample of its inhibit input. -/
def State.sampledGroup (s : State) (g : Group) : InhibitGroup :=
  { s.group g with input := s.inhibitAt g, narrow := s.inhibitAt g != (s.group g).line }

/-- R115: whether the filter gives a change of the line level at this sample: a change that was there at the last
sample holds, or has reverted and is not passed over. -/
def State.lineDue (s : State) (g : Group) : Bool :=
  (s.group g).narrow && (s.inhibitAt g != (s.group g).line || Config.narrowLineTaken s.draws (groupIndex g))

/-- R115: the event that leaves the line level where it is. -/
def lineChange (g : Group) (line : Bool) : Instr :=
  if line then .deassertion g else .assertion g

/-- R27: whether the interval in progress ends with this core-clock period. -/
def TimeBase.tickDue (t : TimeBase) : Bool :=
  match t.running, t.interval with
  | true, some i => decide (i.inForce ≤ i.count + 1)
  | _, _ => false

/-- R27: the interval count after one core-clock period; at the end of the interval it starts again at 0. -/
def TimeBase.counted (t : TimeBase) : TimeBase :=
  match t.interval with
  | some i =>
    if t.tickDue then { t with interval := some { count := 0, inForce := t.divisor } }
    else { t with interval := some { i with count := i.count + 1 } }
  | none => t

/-- R134: a running lease timer after one core-clock period. -/
def State.timed (s : State) (a : Agent) : Session :=
  if s.timerRuns a then { s.sessions[a] with timer := s.sessions[a].timer - 1 } else s.sessions[a]

/-- R135: whether a lease expires with this core-clock period. -/
def State.expiryDue (s : State) (a : Agent) : Bool :=
  s.timerRuns a && decide (s.sessions[a].timer ≤ 1)

/-- The events that one core-clock period brings: edges, changes of the line levels, ticks and lease expiries. -/
def State.due (s : State) : List Instr :=
  ((List.finRange 24).filter fun p => s.edgeDue p).map (fun p => .edge p (edgeFrom s.pins[p].filtered)) ++
    ([Group.a, .b].filter fun g => s.lineDue g).map (fun g => lineChange g (s.group g).line) ++
    ((List.finRange 4).filter fun b => s.bases[b].tickDue).map Instr.tick ++
    ((List.finRange 4).filter fun a => s.expiryDue a).map Instr.leaseExpiry

/-- One core-clock period (R27, R110, R115, R134): pins and inhibit inputs are sampled, intervals and lease timers
counted, and the events that come about wait in the queue, in an order the manual does not fix. While RESETn is low
nothing is sampled or counted. DESIGN CHOICE (log entry 3). -/
def State.clock (s : State) : State :=
  if s.resetn ≠ .high then s
  else
    { s with
      pins := tab s.sampled
      groupA := s.sampledGroup .a
      groupB := s.sampledGroup .b
      bases := tab fun b => s.bases[b].counted
      sessions := tab s.timed
      draws := s.draws + 1
      pending := s.anyOrder (s.due.map fun c => [c]) }

end Sys2Proof.Machine
end

