-- ==== Sys2Proof/Machine/InhibitCommands.lean ====
section
/-! DEFINITION. CONFIG_INHIBIT, CLEAR_INHIBIT, READ_INHIBIT, ASSERTION and DEASSERTION (chapter 6). -/

namespace Sys2Proof.Machine

/-- R117: the state of a group after CONFIG_INHIBIT gives it an enable. -/
def InhibitGroup.configState (x : InhibitGroup) (enable : Bool) : GroupState :=
  match x.enabled, enable with
  | false, false => .clear
  | false, true => if x.line then .active else .clear
  | true, false => .clear
  | true, true => x.state

/-- R117: CONFIG_INHIBIT replaces the enable and the policy, and then sets the state. -/
def configInhibitBody (_ : Agent) (p : List Byte) (s : State) : Except Status Reply := do
  let g ← field (groupOfByte (byteAt p 0))
  let en ← field (bitOfByte (byteAt p 1))
  let pol ← field (Policy.ofByte (byteAt p 2))
  let x := s.group g
  let t := (s.setGroup g { x with enabled := en, policy := pol }).setGroupState g (x.configState en)
  return .answered t [toByte en.toNat, toByte pol.code, toByte (x.configState en).code]

/-- CONFIG_INHIBIT (R117). -/
def execConfigInhibit (s : State) : Host.Outcome State Fault Refusal :=
  .next (s.carryOut .configInhibit configInhibitBody)

/-- R118: CLEAR_INHIBIT clears a LATCHED group. -/
def clearInhibitBody (_ : Agent) (p : List Byte) (s : State) : Except Status Reply := do
  let g ← field (groupOfByte (byteAt p 0))
  require .inhibitActive ((s.group g).state != .active)
  return .answered (s.setGroupState g .clear) []

/-- CLEAR_INHIBIT (R118). -/
def execClearInhibit (s : State) : Host.Outcome State Fault Refusal :=
  .next (s.carryOut .clearInhibit clearInhibitBody)

/-- R119: the number of OUTPUT pins of a group. -/
def State.outputPins (s : State) (g : Group) : Nat :=
  (List.finRange 24).countP fun p => s.pins[p].config.role == .output && s.pins[p].config.group == some g

/-- R119, R179: one group's three bytes of READ_INHIBIT. Bits 7-5 of the first, which R179 does not assign, are sent as
0 (DESIGN CHOICE, log entry 26). -/
def State.groupBytes (s : State) (g : Group) : List Byte :=
  let x := s.group g
  [toByte (x.enabled.toNat + 2 * x.policy.code + 4 * x.state.code + 16 * x.line.toNat), toByte (s.outputPins g),
    toByte (s.countRecords fun r => s.inGroup g r && r.held != .clear)]

/-- R119: READ_INHIBIT changes nothing. -/
def readInhibitBody (_ : Agent) (_ : List Byte) (s : State) : Except Status Reply :=
  .ok (.answered s (s.groupBytes .a ++ s.groupBytes .b))

/-- READ_INHIBIT (R119). -/
def execReadInhibit (s : State) : Host.Outcome State Fault Refusal :=
  .next (s.carryOut .readInhibit readInhibitBody)

/-- R116: the state of an ENABLED group after an assertion. -/
def GroupState.asserted : GroupState → GroupState
  | .clear => .active
  | .latched => .active
  | .active => .active

/-- R116: the state of an ENABLED group after a deassertion. -/
def GroupState.deasserted (x : GroupState) (p : Policy) : GroupState :=
  match x, p with
  | .active, .auto => .clear
  | .active, .latched => .latched
  | .clear, _ => .clear
  | .latched, _ => .latched

/-- R115: the line level of a group replaced. The last sample of the input stays, so that the way back is filtered as
well (DESIGN CHOICE, log entry 17). -/
def InhibitGroup.setLine (x : InhibitGroup) (v : Bool) : InhibitGroup :=
  { x with line := v, narrow := x.input != v }

/-- R115, R116: the line level of a group changes; an ENABLED group takes the event and a DISABLED one does not. While
RESETn is low the lines are not sampled, and the row is the board's moving of the input (DESIGN CHOICE, log entry
17). -/
def State.lineEvent (s : State) (g : Group) (asserted : Bool) : State :=
  let x := s.group g
  if s.resetn ≠ .high then s.setGroup g { x with input := asserted }
  else if x.line = asserted then s
  else
    let t := s.setGroup g (x.setLine asserted)
    if x.enabled then
      t.setGroupState g (if asserted then x.state.asserted else x.state.deasserted x.policy)
    else t

/-- ASSERTION (R115, R116): the line level goes to asserted. -/
def execAssertion (g : Group) (s : State) : Host.Outcome State Fault Refusal :=
  .next (s.lineEvent g true)

/-- DEASSERTION (R115, R116): the line level goes to deasserted. -/
def execDeassertion (g : Group) (s : State) : Host.Outcome State Fault Refusal :=
  .next (s.lineEvent g false)

end Sys2Proof.Machine
end

