-- ==== Sys2Proof/Machine/LinkCommands.lean ====
section
/-! DEFINITION. LINK, UNLINK, SET_LINK and LIST_LINKS (chapter 4). -/

namespace Sys2Proof.Machine

/-- R72: the source event is one that the source's type has. -/
def LinkSource.allows (src : LinkSource) (ev : SourceEvent) : Bool :=
  match src with
  | .record _ => ev.ofRecord
  | .pin _ => !ev.ofRecord

/-- R72: the field-range check of LINK. -/
def linkFields (p : List Byte) : Except Status Link := do
  let src ← field (linkSourceOfFields (byteAt p 0) (wordAt p 1))
  let ev ← field (SourceEvent.ofByte (byteAt p 3))
  require .badValue (src.allows ev)
  let target ← field (Handle.ofWord (wordAt p 4))
  let action ← field (CueAction.ofByte (byteAt p 6))
  let enabled ← field (bitOfByte (byteAt p 7))
  return { source := src, event := ev, target := target, action := action, enabled := enabled }

/-- R72, R78: a record source must be current. -/
def State.currentSource (s : State) (src : LinkSource) : Except Status Unit :=
  match src with
  | .record h => require .staleHandle (s.record? h).isSome
  | .pin _ => .ok ()

/-- R73: the requester owns a record source; a pin source has no owner. -/
def State.ownsSource (s : State) (a : Agent) (src : LinkSource) : Bool :=
  match src with
  | .record h => (s.record? h).any (ownedBy a)
  | .pin _ => true

/-- R73: the conditions of a pin source. -/
def State.pinSourceCheck (s : State) (a : Agent) (src : LinkSource) : Except Status Unit :=
  match src with
  | .record _ => .ok ()
  | .pin p =>
    if s.pins[p].config.role ≠ .cueInput then .error .pinBusy
    else if s.granted a p = false then .error .pinDenied
    else .ok ()

/-- R74 condition 1: the two links agree in source, source event, target and action. -/
def Link.same (l m : Link) : Bool :=
  l.source == m.source && l.event == m.event && l.target == m.target && l.action == m.action

/-- R74: whether a link in use agrees with this one. -/
def State.hasLink (s : State) (m : Link) : Bool :=
  (List.finRange 64).any fun i => s.links[i].any (·.same m)

/-- R74: the lowest-indexed free entry. -/
def State.freeEntry? (s : State) : Option LinkIx :=
  (List.finRange 64).find? fun i => s.links[i].isNone

/-- R74: a link is made in an entry and joins the end of its source's list. -/
def State.addLink (s : State) (i : LinkIx) (l : Link) : State :=
  (s.setLinkList l.source (s.linkList l.source ++ [i])).setLink i (some l)

/-- R72 to R74: LINK makes a link. -/
def linkBody (a : Agent) (p : List Byte) (s : State) : Except Status Reply := do
  let l ← linkFields p
  s.currentSource l.source
  let target ← s.current l.target
  require .notOwner (ownedBy a target && s.ownsSource a l.source)
  s.pinSourceCheck a l.source
  require .linkDuplicate (!s.hasLink l)
  let i ← match s.freeEntry? with | some i => Except.ok i | none => .error .linkFull
  let n := (s.linkList l.source).length
  require .linkLimit (decide (n < 8))
  return .answered (s.addLink i l) [toByte i.val, toByte n]

/-- LINK (R72 to R74). -/
def execLink (s : State) : Host.Outcome State Fault Refusal :=
  .next (s.carryOut .link linkBody)

/-- R76, R77: the link that an index names; a free entry gives BAD_STATE at the place of the handle check. -/
def State.linkInUse (s : State) (i : LinkIx) : Except Status Link :=
  match s.links[i] with
  | some l => .ok l
  | none => .error .badState

/-- R76: the requester is the supervisor or owns the link's target. -/
def State.ownsTarget (s : State) (a : Agent) (l : Link) : Bool :=
  a == 0 || (s.record? l.target).any fun r => r.owner == a

/-- R76: UNLINK frees a link. -/
def unlinkBody (a : Agent) (p : List Byte) (s : State) : Except Status Reply := do
  let i ← field (linkOfByte (byteAt p 0))
  let l ← s.linkInUse i
  require .notOwner (s.ownsTarget a l)
  return .answered (s.freeLink i) []

/-- UNLINK (R76). -/
def execUnlink (s : State) : Host.Outcome State Fault Refusal :=
  .next (s.carryOut .unlink unlinkBody)

/-- R77: SET_LINK replaces a link's enabled field. -/
def setLinkBody (a : Agent) (p : List Byte) (s : State) : Except Status Reply := do
  let i ← field (linkOfByte (byteAt p 0))
  let v ← field (bitOfByte (byteAt p 1))
  let l ← s.linkInUse i
  require .notOwner (s.ownsTarget a l)
  return .answered (s.setLink i (some { l with enabled := v })) []

/-- SET_LINK (R77). -/
def execSetLink (s : State) : Host.Outcome State Fault Refusal :=
  .next (s.carryOut .setLink setLinkBody)

/-- R183: the four bytes of a LIST_LINKS entry. Bits 6-5 of the last, which R183 does not assign, are sent as 0 (DESIGN
CHOICE, log entry 26). -/
def State.linkBytes (s : State) (i : LinkIx) : List Byte :=
  match s.links[i] with
  | some l =>
    toByte i.val :: (wordBytes l.target.value ++
      [toByte (l.event.code + 8 * l.action.code + 128 * l.enabled.toNat)])
  | none => []

/-- R78, R183: the data of a LIST_LINKS response from a start position. Bits 6-4 of byte 0, which R183 does not assign,
are sent as 0 (DESIGN CHOICE, log entry 26). -/
def State.listBytes (s : State) (l : List LinkIx) (start : Nat) : List Byte :=
  let entries := (l.drop start).take 4
  [toByte (l.length + if start + 4 < l.length then 128 else 0), toByte entries.length] ++
    entries.flatMap s.linkBytes

/-- R78: LIST_LINKS reads a source's list. -/
def listLinksBody (_ : Agent) (p : List Byte) (s : State) : Except Status Reply := do
  let src ← field (linkSourceOfFields (byteAt p 0) (wordAt p 1))
  require .badValue (decide ((byteAt p 3).toNat < 8))
  s.currentSource src
  return .answered s (s.listBytes (s.linkList src) (byteAt p 3).toNat)

/-- LIST_LINKS (R78). -/
def execListLinks (s : State) : Host.Outcome State Fault Refusal :=
  .next (s.carryOut .listLinks listLinksBody)

end Sys2Proof.Machine
end

