-- ==== Sys2Proof/Machine/NoticeCommands.lean ====
section
/-! DEFINITION. SET_NOTICES, COLLECT and COLLECT_VISIT (chapter 8). -/

namespace Sys2Proof.Machine

/-- R146: SET_NOTICES replaces the enable set and removes from the others the notices it no longer enables. -/
def setNoticesBody (a : Agent) (p : List Byte) (s : State) : Except Status Reply := do
  let h ← field (Handle.ofWord (wordAt p 0))
  let n ← field (noticesOfWord (wordAt p 2))
  let r ← s.ownRecord a h
  let r' := { r with enableSet := n, pendingSet := r.pendingSet &&& n, againSet := r.againSet &&& n }
  return .answered (s.setRecord h.slot r') (wordBytes n.toNat ++ wordBytes r'.pendingSet.toNat)

/-- SET_NOTICES (R146). -/
def execSetNotices (s : State) : Host.Outcome State Fault Refusal :=
  .next (s.carryOut .setNotices setNoticesBody)

/-- R148: COLLECT begins its visits at the start slot. -/
def collectBody (_ : Agent) (p : List Byte) (s : State) : Except Status Reply := do
  let i ← field (slotOfByte (byteAt p 0))
  return .begun (s.setWork (.collecting i []))

/-- COLLECT (R148). -/
def execCollect (s : State) : Host.Outcome State Fault Refusal :=
  .next (s.carryOut .collect collectBody)

/-- R148: the record in a slot, if the slot qualifies for the agent's COLLECT. -/
def State.collectable (s : State) (a : Agent) (i : SlotIx) : Option Record :=
  match s.slots[i].record with
  | some r => if r.owner = a ∧ r.pendingSet ≠ 0 then some r else none
  | none => none

/-- R182: the four bytes of an entry. -/
def Collected.bytes (c : Collected) : List Byte :=
  wordBytes (c.handle.value + 512 * (hasNotice c.pendingSet .lapsed).toNat +
    1024 * (hasNotice c.againSet .lapsed).toNat) ++
  [c.pendingSet.setWidth 8, c.againSet.setWidth 8]

/-- R182: the data of a COLLECT response. Bits 6-3 of byte 0, which R182 does not assign, are sent as 0 (DESIGN CHOICE,
log entry 26). -/
def collectedBytes (entries : List Collected) (more : Bool) : List Byte :=
  toByte (entries.length + 128 * more.toNat) :: entries.flatMap Collected.bytes

/-- COLLECT_VISIT (R148, R162): a qualifying record's sets are taken and emptied; a seventh one, which is left as it
is, or slot 31, ends the scan. -/
def execCollectVisit (s : State) : Host.Outcome State Fault Refusal :=
  .next
    (match s.working with
    | some (a, f, .collecting i entries) =>
      match s.collectable a i with
      | some r =>
        if entries.length = 6 then s.post a (f.answer (collectedBytes entries true))
        else
          let t := s.setRecord i { r with pendingSet := 0, againSet := 0 }
          let entries' :=
            entries ++ [{ handle := s.handleAt i, pendingSet := r.pendingSet, againSet := r.againSet }]
          match nextSlot i with
          | some j => t.setWork (.collecting j entries')
          | none => t.post a (f.answer (collectedBytes entries' false))
      | none =>
        match nextSlot i with
        | some j => s.setWork (.collecting j entries)
        | none => s.post a (f.answer (collectedBytes entries false))
    | _ => s)

end Sys2Proof.Machine
end

