-- ==== Sys2Proof/Machine/PinCommands.lean ====
section
/-! DEFINITION. MOVE, CONFIG_PIN, GRANT_PINS and READ_PINS (chapter 5). -/

namespace Sys2Proof.Machine

/-! ## MOVE -/

/-- R106: a claim given up or taken; a record without a pin has none. -/
def State.setClaim? (s : State) (p : Option Pin) (c : Option Handle) : State :=
  match p with
  | some p => s.setClaim p c
  | none => s

/-- R105: the conditions on the pin a MOVE names, for the record's owner. -/
def State.moveCheck (s : State) (owner : Agent) (p : Option Pin) : Except Status Unit :=
  match p with
  | some p => s.claimCheck owner p
  | none => .ok ()

/-- R106: the record leaves its pin, if any, and takes the new one, if any; its held mark is re-evaluated. -/
def State.moved (s : State) (h : Handle) (r : Record) (p : Option Pin) : State :=
  let x := { r with pin := p }.reevaluate (s.underForce r.pin) (s.underForce p)
  ((s.setClaim? r.pin none).setClaim? p (some h)).setRecord h.slot (settled x)

/-- R105, R106: MOVE. -/
def moveBody (a : Agent) (p : List Byte) (s : State) : Except Status Reply := do
  let h ← field (Handle.ofWord (wordAt p 0))
  let q ← field (pinOrNone (byteAt p 2))
  let r ← s.ownRecord a h
  if q = r.pin then return .answered s []
  else do
    s.moveCheck r.owner q
    return .answered (s.moved h r q) []

/-- MOVE (R105, R106). -/
def execMove (s : State) : Host.Outcome State Fault Refusal :=
  .next (s.carryOut .move moveBody)

/-! ## CONFIG_PIN -/

/-- R96: the field-range check of CONFIG_PIN. -/
def configFields (p : List Byte) : Except Status (Pin × PinConfig) := do
  let q ← field (pinOfNat (byteAt p 0).toNat)
  let role ← field (Role.ofByte (byteAt p 1))
  let drive ← field (Drive.ofByte (byteAt p 2))
  let pull ← field (Pull.ofByte (byteAt p 3))
  let idle ← field (PinLevel.ofByte (byteAt p 4))
  let safe ← field (PinLevel.ofByte (byteAt p 5))
  let group ← field (pinGroupOfByte (byteAt p 6))
  return (q, { role, drive, pull, idle, safe, group })

/-- R30, R96: whether a base counts this pin, running or not. -/
def State.counts (s : State) (p : Pin) : Bool :=
  (List.finRange 4).any fun b => match s.bases[b].source with | .pin q _ => q == p | .core => false

/-- R96: whether a change of the pin's role is refused. -/
def State.roleBusy (s : State) (p : Pin) : Bool :=
  match s.pins[p].config.role with
  | .output => s.pins[p].claim.isSome
  | .cueInput => !s.pins[p].links.isEmpty
  | .countInput => s.counts p
  | .off => false

/-- R97 to R99: the configuration is replaced, and a claiming record's held mark is re-evaluated. -/
def State.configured (s : State) (p : Pin) (c : PinConfig) : State :=
  let t := s.setPin p { s.pins[p] with config := c }
  match s.pins[p].claim with
  | some h =>
    match s.record? h with
    | some r => t.setRecord h.slot (settled (r.reevaluate (s.pinForced p) (t.pinForced p)))
    | none => t
  | none => t

/-- R96 to R99: CONFIG_PIN. -/
def configPinBody (_ : Agent) (p : List Byte) (s : State) : Except Status Reply := do
  let x ← configFields p
  require .pinBusy (x.2.role == s.pins[x.1].config.role || !s.roleBusy x.1)
  return .answered (s.configured x.1 x.2) []

/-- CONFIG_PIN (R96 to R99). -/
def execConfigPin (s : State) : Host.Outcome State Fault Refusal :=
  .next (s.carryOut .configPin configPinBody)

/-! ## GRANT_PINS -/

/-- R178: the entries of GRANT_PINS, in frame order. -/
def grantEntries (p : List Byte) : Except Status (List (Pin × Bool)) :=
  (p.drop 1).mapM fun b => field (grantOfByte b)

/-- R101: whether the agent owns the record that claims the pin. -/
def State.claimsBy (s : State) (g : Agent) (p : Pin) : Bool :=
  (s.pins[p].claim.bind s.record?).any fun r => r.owner == g

/-- R101: one pin's grant set with an agent added or removed. -/
def State.setGrant (s : State) (g : Agent) (e : Pin × Bool) : State :=
  let x := s.pins[e.1]
  let bit := 1#4 <<< g.val
  s.setPin e.1 { x with grants := if e.2 then x.grants ||| bit else x.grants &&& ~~~bit }

/-- R178: an agent's grant set over all 24 pins, GPn at bit n modulo 8 of byte n / 8. -/
def State.grantBytes (s : State) (g : Agent) : List Byte :=
  let n := ((List.finRange 24).map fun p => if s.granted g p then 2 ^ p.val else 0).sum
  [toByte n, toByte (n / 256), toByte (n / 65536)]

/-- R101, R178: GRANT_PINS, all or none. -/
def grantPinsBody (_ : Agent) (p : List Byte) (s : State) : Except Status Reply := do
  let g ← field (agentOfByte (byteAt p 0))
  require .badValue (g != 0)
  let es ← grantEntries p
  require .badValue (decide (es.map Prod.fst).Nodup)
  require .pinBusy (es.all fun e => e.2 || !s.claimsBy g e.1)
  let t := es.foldl (fun t e => t.setGrant g e) s
  return .answered t (t.grantBytes g)

/-- GRANT_PINS (R101). -/
def execGrantPins (s : State) : Host.Outcome State Fault Refusal :=
  .next (s.carryOut .grantPins grantPinsBody)

/-! ## READ_PINS -/

/-- R183: the three bytes of a STATE entry. -/
def State.stateEntry (s : State) (a : Agent) (p : Pin) : List Byte :=
  let e := s.pins[p]
  toByte (e.config.role.code + 4 * groupCode e.config.group + 16 * (s.granted a p).toNat + 32 * e.observed.toNat +
    64 * (s.shown p).code) :: handleBytes e.claim

/-- R183: the two bytes of a CONFIG entry, with agent `a`'s grant at bit `7 - a` of the second (DEDUCED, log entry 28).
Bit 7 of each, which R183 does not assign, is sent as 0 (DESIGN CHOICE, log entry 26). -/
def State.configEntry (s : State) (p : Pin) : List Byte :=
  let c := s.pins[p].config
  [toByte (c.role.code + 4 * c.drive.code + 8 * c.pull.code + 32 * groupCode c.group),
    toByte (c.idle.code + 4 * c.safe.code + grantSetCode s.pins[p].grants)]

/-- The pins from the first one on, in pin order. -/
def pinsFrom (first count : Nat) : List Pin :=
  (List.finRange 24).filter fun p => first ≤ p.val && p.val < first + count

/-- R109: READ_PINS returns one entry for each pin of the range. -/
def readPinsBody (a : Agent) (p : List Byte) (s : State) : Except Status Reply := do
  let config ← field (bitOfByte (byteAt p 0))
  let first := (byteAt p 1).toNat
  let count := (byteAt p 2).toNat
  require .badValue (decide (first < 24 ∧ 1 ≤ count ∧ count ≤ 8 ∧ first + count ≤ 24))
  let entry := fun q => if config then s.configEntry q else s.stateEntry a q
  return .answered s ([byteAt p 0, byteAt p 1, byteAt p 2] ++ (pinsFrom first count).flatMap entry)

/-- READ_PINS (R109). -/
def execReadPins (s : State) : Host.Outcome State Fault Refusal :=
  .next (s.carryOut .readPins readPinsBody)

end Sys2Proof.Machine
end

