-- ==== Sys2Proof/Machine/RecordCommands.lean ====
section
/-! DEFINITION. CREATE, RETIRE, LINK_FREE_VISIT, READ_RECORD, FIND_BY_PIN, FIND_BY_TAG, FIND_BY_TAG_VISIT, SET_TAG and
SET_LAPSE (chapter 1). -/

namespace Sys2Proof.Machine

/-! ## CREATE -/

/-- R12: the parameters of a CREATE that are in range, together. -/
structure NewRecord where
  kind : Kind
  base : Base
  timing : Timing
  level : Bool
  invert : Bool
  rearm : Bool
  pin : Option Pin
  tag : Byte
  lapse : LapseAction
  deriving DecidableEq, Repr

/-- R12: the field-range check of CREATE. -/
def createFields (p : List Byte) : Except Status NewRecord := do
  let kind ← field (Kind.ofByte (byteAt p 0))
  let base ← field (baseOfByte (byteAt p 1))
  let timing : Timing := { period := wordAt p 2, markA := wordAt p 4, markB := wordAt p 6 }
  require .badValue (if kind.timed then timing.period != 0 else timing.period == 0 && timing.markA == 0)
  require .badValue (kind.hasMarkB || timing.markB == 0)
  let level ← field (bitOfByte (byteAt p 8))
  require .badValue (kind.hasLevel || !level)
  let invert ← field (bitOfByte (byteAt p 9))
  let rearm ← field (bitOfByte (byteAt p 10))
  require .badValue (kind == .pulseOnce || !rearm)
  let pin ← field (pinOrNone (byteAt p 11))
  let lapse ← field (LapseAction.ofByte (byteAt p 13))
  return { kind, base, timing, level, invert, rearm, pin, tag := byteAt p 12, lapse }

/-- R6, R13: the record as CREATE makes it; held is set when its pin's group is forcing. -/
def NewRecord.record (x : NewRecord) (owner : Agent) (forced : Bool) : Record :=
  let r : Record :=
    { owner := owner, orphan := false, tag := x.tag, kind := x.kind, state := .idle, base := x.base,
      timing := x.timing, level := x.level, invert := x.invert, rearm := x.rearm, pin := x.pin, lapse := x.lapse,
      counter := 0, phase := .waitA, output := false, staged := none, cue := none,
      held := if forced then .held else .clear, groupWait := none,
      enableSet := Config.defaultNotices, pendingSet := 0, againSet := 0, outgoing := [] }
  { r with output := r.restLevel }

/-- R3: the lowest EMPTY slot. -/
def State.emptySlot? (s : State) : Option SlotIx :=
  (List.finRange 32).find? fun i => s.slots[i].record.isNone

/-- R13: the pin named by a CREATE is claimed by the new handle. -/
def State.claimFor (s : State) (pin : Option Pin) (h : Handle) : State :=
  match pin with
  | some p => s.setClaim p (some h)
  | none => s

/-- R13: the pin conditions of CREATE; a record without a pin has none. -/
def State.claimCheck? (s : State) (a : Agent) (pin : Option Pin) : Except Status Unit :=
  match pin with
  | some p => s.claimCheck a p
  | none => .ok ()

/-- R12, R13: CREATE makes an IDLE record in the lowest EMPTY slot and claims its pin. -/
def createBody (a : Agent) (p : List Byte) (s : State) : Except Status Reply := do
  let x ← createFields p
  let i ← match s.emptySlot? with | some i => Except.ok i | none => .error .noSlot
  s.claimCheck? a x.pin
  let t := (s.setRecord i (x.record a (s.underForce x.pin))).claimFor x.pin (s.handleAt i)
  return .answered t (handleBytes (some (s.handleAt i)))

/-- CREATE (R12, R13). -/
def execCreate (s : State) : Host.Outcome State Fault Refusal :=
  .next (s.carryOut .create createBody)

/-! ## RETIRE -/

/-- R15, R162: RETIRE empties the slot and begins its visits of the link entries. -/
def retireBody (a : Agent) (p : List Byte) (s : State) : Except Status Reply := do
  let h ← field (Handle.ofWord (wordAt p 0))
  let _ ← s.ownRecord a h
  return .begun ((s.emptySlot h.slot).setWork (.retiring h 0))

/-- RETIRE (R15). -/
def execRetire (s : State) : Host.Outcome State Fault Refusal :=
  .next (s.carryOut .retire retireBody)

/-- LINK_FREE_VISIT (R16, R162): the entry is freed if it names the retired handle; after entry 63 OK is posted. -/
def execLinkFreeVisit (s : State) : Host.Outcome State Fault Refusal :=
  .next
    (match s.working with
    | some (a, f, .retiring h i) =>
      let t := s.freeIfNames h i
      match nextEntry i with
      | some j => t.setWork (.retiring h j)
      | none => t.post a (f.answer [])
    | _ => s)

/-! ## Reading and finding -/

/-- R18, R181: the 29 data bytes of READ_RECORD; absent fields are 0. Bit 7 of byte 7, which R181 does not assign, and
the group-wait base without a group-wait are sent as 0 (DESIGN CHOICE, log entry 26). -/
def State.recordBytes (s : State) (h : Handle) (r : Record) : List Byte :=
  let k := r.kind
  let shown := match r.pin with | some p => (s.shown p).code | none => 0
  let pin := match r.pin with | some p => p.val | none => 255
  let wait := match r.groupWait with | some b => b.val | none => 0
  let staged := r.staged.getD { period := 0, markA := 0, markB := 0 }
  let cue := match r.cue with | some c => c.link.val + 64 * c.action.code | none => 0
  let flag (x : Bool) (n : Nat) := if x then n else 0
  let counter := if k.timed then r.counter.toNat else 0
  wordBytes h.value ++
  [toByte (r.owner.val + flag r.orphan 4 + flag (r.held != .clear) 8 + flag r.invert 16 +
      flag (k == .pulseOnce && r.rearm) 32 + flag (k.hasLevel && r.level) 64 + flag r.output 128),
    toByte (k.code + 16 * r.state.code + flag (k.hasMarkB && r.phase == .waitB) 128),
    toByte (r.base.val + 4 * r.lapse.code + 16 * shown + 64 * wait),
    r.tag,
    toByte pin,
    toByte (r.outgoing.length + flag r.staged.isSome 16 + flag r.cue.isSome 32 + flag r.groupWait.isSome 64)] ++
  wordBytes (if k.timed then r.timing.period.toNat else 0) ++
  wordBytes counter ++
  wordBytes (if k.timed then r.timing.markA.toNat else 0) ++
  wordBytes (if k.hasMarkB then r.timing.markB.toNat else 0) ++
  wordBytes staged.period.toNat ++ wordBytes staged.markA.toNat ++ wordBytes staged.markB.toNat ++
  [toByte cue] ++
  wordBytes r.enableSet.toNat ++ wordBytes r.pendingSet.toNat ++ wordBytes r.againSet.toNat

/-- R18: READ_RECORD returns the record's fields and changes nothing. -/
def readRecordBody (_ : Agent) (p : List Byte) (s : State) : Except Status Reply := do
  let h ← field (Handle.ofWord (wordAt p 0))
  let r ← s.current h
  return .answered s (s.recordBytes h r)

/-- READ_RECORD (R18). -/
def execReadRecord (s : State) : Host.Outcome State Fault Refusal :=
  .next (s.carryOut .readRecord readRecordBody)

/-- R19: FIND_BY_PIN returns the claim of a pin. -/
def findByPinBody (_ : Agent) (p : List Byte) (s : State) : Except Status Reply := do
  let q ← field (pinOfNat (byteAt p 0).toNat)
  return .answered s (handleBytes s.pins[q].claim)

/-- FIND_BY_PIN (R19). -/
def execFindByPin (s : State) : Host.Outcome State Fault Refusal :=
  .next (s.carryOut .findByPin findByPinBody)

/-- R20: FIND_BY_TAG begins its visits at the start slot. -/
def findByTagBody (_ : Agent) (p : List Byte) (s : State) : Except Status Reply := do
  let i ← field (slotOfByte (byteAt p 1))
  return .begun (s.setWork (.finding (byteAt p 0) i []))

/-- FIND_BY_TAG (R20). -/
def execFindByTag (s : State) : Host.Outcome State Fault Refusal :=
  .next (s.carryOut .findByTag findByTagBody)

/-- R20: whether a slot qualifies for a search by the agent. -/
def State.hasTag (s : State) (a : Agent) (tag : Byte) (i : SlotIx) : Bool :=
  s.slots[i].record.any fun r => r.tag == tag && ownedBy a r

/-- R20, R179: the data of a FIND_BY_TAG response. Bits 6-4 of its count byte, which R179 does not assign, are sent as
0 (DESIGN CHOICE, log entry 26). -/
def foundBytes (found : List Handle) (more : Bool) : List Byte :=
  toByte (found.length + 128 * more.toNat) :: found.flatMap fun h => wordBytes h.value

/-- FIND_BY_TAG_VISIT (R20, R162): a qualifying slot's handle is collected; a ninth one, or slot 31, ends the search. -/
def execFindByTagVisit (s : State) : Host.Outcome State Fault Refusal :=
  .next
    (match s.working with
    | some (a, f, .finding tag i found) =>
      if s.hasTag a tag i = true ∧ found.length = 8 then s.post a (f.answer (foundBytes found true))
      else
        let found' := if s.hasTag a tag i then found ++ [s.handleAt i] else found
        match nextSlot i with
        | some j => s.setWork (.finding tag j found')
        | none => s.post a (f.answer (foundBytes found' false))
    | _ => s)

/-! ## Tag and lapse action -/

/-- R22: SET_TAG replaces the tag. -/
def setTagBody (a : Agent) (p : List Byte) (s : State) : Except Status Reply := do
  let h ← field (Handle.ofWord (wordAt p 0))
  let r ← s.ownRecord a h
  return .answered (s.setRecord h.slot { r with tag := byteAt p 2 }) []

/-- SET_TAG (R22). -/
def execSetTag (s : State) : Host.Outcome State Fault Refusal :=
  .next (s.carryOut .setTag setTagBody)

/-- R23: SET_LAPSE replaces the lapse action. -/
def setLapseBody (a : Agent) (p : List Byte) (s : State) : Except Status Reply := do
  let h ← field (Handle.ofWord (wordAt p 0))
  let l ← field (LapseAction.ofByte (byteAt p 2))
  let r ← s.ownRecord a h
  return .answered (s.setRecord h.slot { r with lapse := l }) []

/-- SET_LAPSE (R23). -/
def execSetLapse (s : State) : Host.Outcome State Fault Refusal :=
  .next (s.carryOut .setLapse setLapseBody)

end Sys2Proof.Machine
end

