-- ==== Sys2Proof/Machine/Reset.lean ====
section
/-! DEFINITION. POWER_ON, RESETN_ASSERTION and RESETN_RELEASE. -/

namespace Sys2Proof.Machine

/-- R115: a group whose line level is taken from the input as it stands. -/
def InhibitGroup.taken (x : InhibitGroup) : InhibitGroup :=
  { x with line := x.input, narrow := false }

/-- R92, R115: filtered levels and line levels are taken from the inputs as they stand; this is no edge, assertion or
deassertion. The next sample of a floating pin is another draw (log entry 7). -/
def State.takeLevels (s : State) : State :=
  { s with
    pins := tab fun p =>
      { s.pins[p] with observed := s.levelAt p, filtered := s.levelAt p, narrow := false }
    groupA := s.groupA.taken
    groupB := s.groupB.taken
    draws := s.draws + 1 }

/-- R24, R25, R69, R91, R114, R128, R152 to R154, R169: every block at its values after a reset. What the board holds
(the pins' outside levels, INH_A, INH_B, CSn) is no state of the part and stays as it is. -/
def State.cleared (s : State) (line : ResetLine) (cause : ResetCause) : State :=
  { State.reset with
    resetn := line
    pins := tab fun p => { PinEntry.initial with board := s.pins[p].board }
    groupA := { InhibitGroup.initial with input := s.groupA.input }
    groupB := { InhibitGroup.initial with input := s.groupB.input }
    engine := { Engine.initial with cause := cause }
    csnLow := s.csnLow
    draws := s.draws
    pending := s.pending }

/-- POWER_ON (R24, R152, R167): every block at its power-on values, at the end of power-on. A RESETn that is low then
has been low since power-on. -/
def execPowerOn (s : State) : Host.Outcome State Fault Refusal :=
  .next (s.cleared (if s.resetn = .high then .high else .lowSincePowerOn) .powerOn).takeLevels

/-- RESETN_ASSERTION (R92, R152, R169): an operation or transaction in progress is abandoned and every block takes its
RESETn values. The reset cause changes at the release (R167). A RESETn that is low already cannot fall. -/
def execResetnAssertion (s : State) : Host.Outcome State Fault Refusal :=
  .next (if s.resetn = .high then (s.cleared .low s.engine.cause).takeLevels else s)

/-- RESETN_RELEASE (R92, R115, R167): levels are taken from the inputs without an edge, and the reset cause becomes
RESET_LINE unless RESETn has been low since power-on. A RESETn that is high already cannot rise. -/
def execResetnRelease (s : State) : Host.Outcome State Fault Refusal :=
  .next
    (match s.resetn with
    | .high => s
    | .low =>
      { s with resetn := .high, engine := { s.engine with cause := .resetLine } }.takeLevels
    | .lowSincePowerOn => { s with resetn := .high }.takeLevels)

end Sys2Proof.Machine
end

