-- ==== Sys2Proof/Machine/RunCommands.lean ====
section
/-! DEFINITION. START, ARM, STOP, SET_LEVEL, SET_TIMING, CANCEL_STAGED, START_GROUP and START_GROUP_VISIT (chapters 2,
3 and 4). -/

namespace Sys2Proof.Machine

/-- R52: START starts a record that is not RUNNING. -/
def startBody (a : Agent) (p : List Byte) (s : State) : Except Status Reply := do
  let h ← field (Handle.ofWord (wordAt p 0))
  let r ← s.ownRecord a h
  require .recordBusy (r.state != .running)
  return .answered (s.occur h r.begin) []

/-- START (R52). -/
def execStart (s : State) : Host.Outcome State Fault Refusal :=
  .next (s.carryOut .start startBody)

/-- R53: what ARM does to a record that is not RUNNING; an ARMED record is unchanged. -/
def Record.armed (r : Record) : Record :=
  if r.state = .armed then r
  else { r with state := .armed, counter := 0, phase := .waitA, output := r.restLevel }

/-- R53: ARM sends an IDLE or DONE record to ARMED. -/
def armBody (a : Agent) (p : List Byte) (s : State) : Except Status Reply := do
  let h ← field (Handle.ofWord (wordAt p 0))
  let r ← s.ownRecord a h
  require .recordBusy (r.state != .running)
  return .answered (s.setRecord h.slot r.armed) []

/-- ARM (R53). -/
def execArm (s : State) : Host.Outcome State Fault Refusal :=
  .next (s.carryOut .arm armBody)

/-- R54: STOP, in any state. -/
def stopBody (a : Agent) (p : List Byte) (s : State) : Except Status Reply := do
  let h ← field (Handle.ofWord (wordAt p 0))
  let r ← s.ownRecord a h
  return .answered (s.occur h r.halt) []

/-- STOP (R54). -/
def execStop (s : State) : Host.Outcome State Fault Refusal :=
  .next (s.carryOut .stop stopBody)

/-- R55: whether a new level is the record's logical output at once. -/
def Record.showsLevel (r : Record) : Bool :=
  (r.kind == .level && r.state == .running) ||
    (r.kind == .toggleAt && (r.state == .idle || r.state == .armed))

/-- R55: SET_LEVEL replaces the level field of a LEVEL or TOGGLE_AT record. -/
def setLevelBody (a : Agent) (p : List Byte) (s : State) : Except Status Reply := do
  let h ← field (Handle.ofWord (wordAt p 0))
  let v ← field (bitOfByte (byteAt p 2))
  let r ← s.ownRecord a h
  require .badValue r.kind.hasLevel
  return .answered
    (s.setRecord h.slot { r with level := v, output := if r.showsLevel then v else r.output }) []

/-- SET_LEVEL (R55). -/
def execSetLevel (s : State) : Host.Outcome State Fault Refusal :=
  .next (s.carryOut .setLevel setLevelBody)

/-- R57 to R60: SET_TIMING stages a copy on a RUNNING periodic record and replaces the timing of any other. Bits 7-2 of
its data byte are sent as 0 (DESIGN CHOICE, log entry 26). -/
def setTimingBody (a : Agent) (p : List Byte) (s : State) : Except Status Reply := do
  let h ← field (Handle.ofWord (wordAt p 0))
  let t : Timing := { period := wordAt p 2, markA := wordAt p 4, markB := wordAt p 6 }
  require .badValue (t.period != 0)
  let r ← s.ownRecord a h
  require .badValue r.kind.timed
  require .badValue (r.kind.hasMarkB || t.markB == 0)
  require .recordBusy (!(r.state == .running && r.kind.oneShot))
  if r.state = .running then
    return .answered (s.setRecord h.slot { r with staged := some t }) [if r.staged.isSome then 3 else 1]
  else
    return .answered (s.setRecord h.slot { r with timing := t, counter := 0 }) [0]

/-- SET_TIMING (R57 to R60). -/
def execSetTiming (s : State) : Host.Outcome State Fault Refusal :=
  .next (s.carryOut .setTiming setTimingBody)

/-- R65: CANCEL_STAGED removes a staged copy without commit. Bits 7-1 of its data byte are sent as 0 (DESIGN CHOICE, log
entry 26). -/
def cancelStagedBody (a : Agent) (p : List Byte) (s : State) : Except Status Reply := do
  let h ← field (Handle.ofWord (wordAt p 0))
  let r ← s.ownRecord a h
  return .answered (s.setRecord h.slot { r with staged := none }) [if r.staged.isSome then 1 else 0]

/-- CANCEL_STAGED (R65). -/
def execCancelStaged (s : State) : Host.Outcome State Fault Refusal :=
  .next (s.carryOut .cancelStaged cancelStagedBody)

/-- R158: the records of several handles, in frame order; the first stale one gives the status. -/
def State.currentAll (s : State) (hs : List Handle) : Except Status (List Record) :=
  hs.mapM s.current

/-- R86: START_GROUP's handle fields, in frame order. -/
def groupHandles (p : List Byte) : Except Status (List Handle) :=
  (List.range (byteAt p 0).toNat).mapM fun i => field (Handle.ofWord (wordAt p (1 + 2 * i)))

/-- R86, R87: START_GROUP checks its records together and begins its visits. -/
def startGroupBody (a : Agent) (p : List Byte) (s : State) : Except Status Reply := do
  let n := (byteAt p 0).toNat
  require .badValue (1 ≤ n && n ≤ 8)
  let hs ← groupHandles p
  let rs ← s.currentAll hs
  require .notOwner (rs.all (ownedBy a))
  require .badValue (decide hs.Nodup)
  let b := match rs with | r :: _ => r.base | [] => 0
  require .baseMismatch (rs.all fun r => r.base == b)
  require .badState (rs.all fun r => r.state != .running)
  return .begun (s.setWork (.grouping b hs 0 0))

/-- START_GROUP (R86). -/
def execStartGroup (s : State) : Host.Outcome State Fault Refusal :=
  .next (s.carryOut .startGroup startGroupBody)

/-- R87: whether a visit marks the named record: it is not RUNNING. -/
def State.marks (s : State) (h : Handle) : Bool :=
  (s.record? h).any fun r => r.state != .running

/-- R87: a visit marks the named record with group-wait, unless it is RUNNING. -/
def State.markWaiting (s : State) (h : Handle) (b : Base) : State :=
  match s.record? h with
  | some r => if r.state = .running then s else s.setRecord h.slot { r with groupWait := some b }
  | none => s

/-- START_GROUP_VISIT (R87, R162): one named record is marked; after the last the latch is set and OK is posted. The bits
of its data byte above the last handle's are sent as 0 (DESIGN CHOICE, log entry 26). -/
def execStartGroupVisit (s : State) : Host.Outcome State Fault Refusal :=
  .next
    (match s.working with
    | some (a, f, .grouping b (h :: hs) n marked) =>
      let marked' := if s.marks h then marked ||| (1#8 <<< n) else marked
      let t := s.markWaiting h b
      match hs with
      | [] => (t.setBase b { t.bases[b] with latch := true }).post a (f.answer [marked'])
      | _ :: _ => t.setWork (.grouping b hs (n + 1) marked')
    | _ => s)

end Sys2Proof.Machine
end

