-- ==== Sys2Proof/WellFormed.lean ====
section
/-! DEFINITION. Which command terms the part's interface can present: the checks on a stretch of an SPI transaction.
Every other operand is in range by its type. -/

namespace Sys2Proof

/-- R170: the type field of a header byte, bits 5-4. -/
def headerType (h : Byte) : Nat :=
  h.toNat / 16 % 4

/-- A stretch that opens a transaction of type `t` (R170): if its header byte is complete, the header carries the type
of the row; an incomplete byte can only be cut short by CSn rising (R168: a byte is complete at its eighth edge). -/
def Transfer.wellFormed (t : Nat) (x : Transfer) : Bool :=
  (!x.opens || (match x.bytes with | [] => true | h :: _ => headerType h == t)) && (x.bits == 0 || x.closes)

/-- The well-formed commands. -/
def Instr.wellFormed : Instr → Bool
  | .requestTransaction x => x.wellFormed 1
  | .fetchTransaction x => x.wellFormed 2
  | .statusTransaction x => x.wellFormed 3
  | .headerType0Transaction x => x.wellFormed 0
  | .powerOn | .resetnAssertion | .resetnRelease => true
  | .unknownRequest | .openSession | .closeSession | .closeVisit | .ping | .setAttention => true
  | .collect | .collectVisit | .create | .retire | .linkFreeVisit | .readRecord => true
  | .findByPin | .findByTag | .findByTagVisit | .setTag | .setLapse | .setNotices => true
  | .start | .arm | .stop | .setLevel | .setTiming | .cancelStaged => true
  | .startGroup | .startGroupVisit | .link | .unlink | .setLink | .listLinks => true
  | .move | .configPin | .grantPins | .readPins => true
  | .setTimebase | .runTimebase | .haltTimebase | .setDivisor | .readTimebase => true
  | .configInhibit | .clearInhibit | .readInhibit => true
  | .adopt | .forceClose | .forceCloseVisit | .restart | .restartVisit | .readDevice => true
  | .leaseExpiry _ | .lapseSweep | .lapseSweepVisit => true
  | .tick _ | .edge _ _ | .assertion _ | .deassertion _ => true
  | .observedLevelChange _ _ => true

end Sys2Proof
end

