-- ==== Sys2Proof/Machine/SerialPort.lean ====
section
/-! DEFINITION. REQUEST_TRANSACTION, FETCH_TRANSACTION, STATUS_TRANSACTION and HEADER_TYPE_0_TRANSACTION: the port takes
a transaction byte by byte (10.1), and checks it when CSn rises (10.3, 10.4). -/

namespace Sys2Proof.Machine

/-- R170: the agent of a header byte, bits 7-6. -/
def headerAgent (h : Byte) : Agent :=
  Fin.ofNat 4 (h.toNat / 64)

/-- R176: the frame a FETCH of the agent sends out, chosen when byte 0 is complete, and whether it is the response in
the slot. -/
def State.fetchChoice (s : State) (a : Agent) : List Byte × Bool :=
  match s.ports[a].request, s.ports[a].response with
  | .queued _, _ | .active _, _ => (emptyFrame, false)
  | _, some r => (r.bytes, true)
  | _, none => (emptyFrame, false)

/-- R168: the byte the part sends while the host sends byte `n`. -/
def Reception.output (x : Reception) (n : Nat) : Byte :=
  match n with
  | 0 => 0
  | 1 => x.captured
  | k + 2 => x.sending.getD k 0

/-- R168: the bits that the part sends, MSB first, over the first `bits` edges of an incomplete byte. -/
def Reception.partialByte (x : Reception) (bits : Nat) : List Bool :=
  (List.range bits).map fun j => (x.output x.bytes.length).getMsbD j

/-- R168, R169: the byte that the part is driving out on SDO, MSB first. There is none, and SDO is at high impedance,
while CSn is high, while RESETn is low, and for the rest of a transaction that the port ignores (the last by log
entry 15). -/
def State.sdoByte (s : State) : Option Byte :=
  match s.resetn, s.csnLow, s.receiver with
  | .high, true, some x => some (x.output x.bytes.length)
  | _, _, _ => none

/-- R168: the reception at the falling edge of CSn. -/
def Reception.opening : Reception where
  bytes := []
  captured := 0
  sending := []
  taking := false

/-- R171, R176: byte 0 is complete: the status byte is captured and the frame of a FETCH is chosen. -/
def State.takeHeader (s : State) (h : Byte) : State :=
  let choice := if headerType h = 2 then s.fetchChoice (headerAgent h) else ([], false)
  let x : Reception :=
    { bytes := [h], captured := s.statusByte (headerAgent h), sending := choice.1, taking := choice.2 }
  { s with receiver := some x }

/-- R171: byte 1 is complete: the flags that the captured status byte shows are cleared. -/
def State.clearFlags (s : State) (x : Reception) (a : Agent) : State :=
  s.setPort a (s.ports[a].clearShown x.captured)

/-- R176: the response that a FETCH sends is taken from the response slot. -/
def State.takeResponse (s : State) (a : Agent) : State :=
  s.setPort a { s.ports[a] with response := none }

/-- R168: one whole byte of a transaction. A port that is not receiving ignores it. -/
def State.portByte (s : State) (b : Byte) : State :=
  match s.receiver with
  | none => s
  | some x =>
    let n := x.bytes.length
    let t := { s with sdo := s.sdo ++ [x.output n] }
    match x.bytes with
    | [] => t.takeHeader b
    | h :: _ =>
      let a := headerAgent h
      let u := if n = 1 then t.clearFlags x a else t
      let v := if x.taking = true ∧ n = x.sending.length + 1 then u.takeResponse a else u
      { v with receiver := some { x with bytes := x.bytes ++ [b] } }

/-- R172, R175: the agent's frame-error flag is set. -/
def State.frameFault (s : State) (a : Agent) : State :=
  s.setPort a { s.ports[a] with frameError := true }

/-- R172, R173: the agent's CRC-error flag is set. -/
def State.crcFault (s : State) (a : Agent) : State :=
  s.setPort a { s.ports[a] with crcError := true }

/-- R173, R175: a REQUEST transaction ends: its length byte, its count of whole bytes and its CRC-8 are checked, and a
good frame arrives. -/
def State.endRequest (s : State) (a : Agent) (bytes : List Byte) (bits : Nat) : State :=
  let n := (byteAt bytes 3).toNat
  if bytes.length < 4 then s.frameFault a
  else if Config.maxParams < n then s.frameFault a
  else if bytes.length ≠ 5 + n ∨ bits ≠ 0 then s.frameFault a
  else if byteAt bytes (4 + n) ≠ crc8 (bytes.take (4 + n)) then s.crcFault a
  else s.arrive a { seq := byteAt bytes 1, code := byteAt bytes 2, params := (bytes.drop 4).take n }

/-- R173, R175: CSn rises over what has been received. -/
def State.endTransaction (s : State) (x : Reception) (bits : Nat) : State :=
  match x.bytes with
  | [] => s
  | h :: rest =>
    let a := headerAgent h
    if rest = [] then s.frameFault a
    else
      match headerType h with
      | 1 => s.endRequest a x.bytes bits
      | 2 => if x.bytes.length < 2 + x.sending.length then s.frameFault a else s
      | 3 => if x.bytes.length ≠ 2 ∨ bits ≠ 0 then s.frameFault a else s
      | _ => s.frameFault a

/-- R168, R169: CSn falls. A port in reset takes no transaction that opens then. -/
def State.csnFall (s : State) : State :=
  { s with csnLow := true, sdo := [], sdoBits := [], receiver := if s.resetn = .high then some .opening else none }

/-- R168, R169: CSn rises, after `bits` edges of an incomplete byte. A port that is not receiving drives nothing and
takes nothing. -/
def State.csnRise (s : State) (bits : Nat) : State :=
  let t := { s with csnLow := false, receiver := none }
  match s.receiver with
  | some x => { t with sdoBits := x.partialByte bits }.endTransaction x bits
  | none => t

/-- R170: the type of the transaction a stretch belongs to, from the header within it or received before it; absent
before byte 0 is complete, and in the rest of a transaction that the port ignores, which has received no header
(R169). -/
def State.transferType (s : State) (x : Transfer) : Option Nat :=
  if x.opens then x.bytes.head?.map headerType
  else
    match s.receiver with
    | some r => (r.bytes ++ x.bytes).head?.map headerType
    | none => none

/-- A stretch of a transaction of type `type` (R168). A stretch that opens while CSn is low, or goes on while CSn is
high, and one whose header carries another type, cannot occur as this command (log entry 2). The rest of a transaction
that the port ignores is given as any of the four rows (R169). -/
def State.transfer (s : State) (type : Nat) (x : Transfer) : State :=
  if x.opens = s.csnLow ∨ (s.transferType x).any (· != type) = true then s
  else
    let t := if x.opens then s.csnFall else s
    let u := x.bytes.foldl State.portByte t
    if x.closes then u.csnRise x.bits.val else u

/-- REQUEST_TRANSACTION (R173, R175, R155). -/
def execRequestTransaction (x : Transfer) (s : State) : Host.Outcome State Fault Refusal :=
  .next (s.transfer 1 x)

/-- FETCH_TRANSACTION (R176, R177, R175). -/
def execFetchTransaction (x : Transfer) (s : State) : Host.Outcome State Fault Refusal :=
  .next (s.transfer 2 x)

/-- STATUS_TRANSACTION (R171, R175). -/
def execStatusTransaction (x : Transfer) (s : State) : Host.Outcome State Fault Refusal :=
  .next (s.transfer 3 x)

/-- HEADER_TYPE_0_TRANSACTION (R170, R175). -/
def execHeaderType0Transaction (x : Transfer) (s : State) : Host.Outcome State Fault Refusal :=
  .next (s.transfer 0 x)

end Sys2Proof.Machine
end

