-- ==== Sys2Proof/Machine/SessionCommands.lean ====
section
/-! DEFINITION. OPEN, CLOSE, CLOSE_VISIT, PING, SET_ATTENTION, ADOPT, FORCE_CLOSE, FORCE_CLOSE_VISIT, LEASE_EXPIRY,
LAPSE_SWEEP and LAPSE_SWEEP_VISIT (chapter 7, and SET_ATTENTION of chapter 8). -/

namespace Sys2Proof.Machine

/-! ## Opening and pinging -/

/-- R130: whether OPEN clears this record's orphan mark. -/
def ownedOrphan (a : Agent) (r : Record) : Bool :=
  r.owner == a && r.orphan

/-- R130: the OPEN of an agent. -/
def openBody (a : Agent) (p : List Byte) (s : State) : Except Status Reply :=
  let x := s.sessions[a]
  let lapsed := x.state == .lapsed
  let t := if lapsed then s.mapRecords fun r => if r.owner = a then { r with orphan := false } else r else s
  let cleared := if lapsed then s.countRecords (ownedOrphan a) else 0
  .ok (.answered (t.setSession a { x with state := .opened, lease := byteAt p 0 })
    [toByte x.state.code, toByte cleared])

/-- OPEN (R130). -/
def execOpenSession (s : State) : Host.Outcome State Fault Refusal :=
  .next (s.carryOut .openSession openBody)

/-- R131: the lease margin: the whole lease units left on the timer, 0 without a lease. A timer that stands at the full
interval of 255 units answers 254, the end of R131's range (log entry 9). -/
def Session.margin (x : Session) : Nat :=
  if x.lease = 0 then 0 else min 254 (x.timer / Config.leaseUnit)

/-- R131: PING reports and changes nothing. -/
def pingBody (a : Agent) (_ : List Byte) (s : State) : Except Status Reply :=
  let x := s.sessions[a]
  .ok (.answered s [toByte x.state.code, x.lease, toByte x.attention.toNat, toByte x.margin])

/-- PING (R131). -/
def execPing (s : State) : Host.Outcome State Fault Refusal :=
  .next (s.carryOut .ping pingBody)

/-- R147: whether the agent owns this record and it has a notice pending. -/
def pendingOf (a : Agent) (r : Record) : Bool :=
  r.owner == a && r.pendingSet != 0

/-- R147: SET_ATTENTION replaces the requester's attention enable. -/
def setAttentionBody (a : Agent) (p : List Byte) (s : State) : Except Status Reply := do
  let v ← field (bitOfByte (byteAt p 0))
  return .answered (s.setSession a { s.sessions[a] with attention := v })
    [toByte v.toNat, toByte (s.countRecords (pendingOf a))]

/-- SET_ATTENTION (R147). -/
def execSetAttention (s : State) : Host.Outcome State Fault Refusal :=
  .next (s.carryOut .setAttention setAttentionBody)

/-! ## Closing -/

/-- R132: an accepted CLOSE begins its visits at slot 0. -/
def closeBody (_ : Agent) (_ : List Byte) (s : State) : Except Status Reply :=
  .ok (.begun (s.setWork (.closing 0 0)))

/-- CLOSE (R132). -/
def execCloseSession (s : State) : Host.Outcome State Fault Refusal :=
  .next (s.carryOut .closeSession closeBody)

/-- Whether a slot holds a record of the agent. -/
def State.holdsRecordOf (s : State) (a : Agent) (i : SlotIx) : Bool :=
  s.slots[i].record.any fun r => r.owner == a

/-- R132, R133: a visit retires the slot's record if the agent owns it. -/
def State.retireOwned (s : State) (a : Agent) (i : SlotIx) : State :=
  if s.holdsRecordOf a i then s.retireSlot i else s

/-- CLOSE_VISIT (R132, R162): one visit, and after slot 31 the end of the session and the response. -/
def execCloseVisit (s : State) : Host.Outcome State Fault Refusal :=
  .next
    (match s.working with
    | some (a, f, .closing i n) =>
      let n' := n + (s.holdsRecordOf a i).toNat
      let t := s.retireOwned a i
      match nextSlot i with
      | some j => t.setWork (.closing j n')
      | none => (t.closeSession a).post a (f.answer [toByte n'])
    | _ => s)

/-- R133 step 2: whether the agent's request slot holds a queued request. -/
def RequestSlot.isQueued : RequestSlot → Bool
  | .queued _ => true
  | _ => false

/-- R133: FORCE_CLOSE ends the named agent's lease, discards what its request slot holds, and begins its visits. -/
def forceCloseBody (_ : Agent) (p : List Byte) (s : State) : Except Status Reply := do
  let g ← field (agentOfByte (byteAt p 0))
  require .badValue (g != 0)
  let slot := s.ports[g].request
  let t := (s.endLease g).discard g .closed
  return .begun (t.setWork (.forceClosing g s.sessions[g].state slot.isQueued (slot == .sweepQueued) 0 0))

/-- FORCE_CLOSE (R133). -/
def execForceClose (s : State) : Host.Outcome State Fault Refusal :=
  .next (s.carryOut .forceClose forceCloseBody)

/-- FORCE_CLOSE_VISIT (R133, R162): one visit, and after slot 31 steps 4 and 5. Bits 7-2 of the second data byte are
sent as 0 (DESIGN CHOICE, log entry 26). -/
def execForceCloseVisit (s : State) : Host.Outcome State Fault Refusal :=
  .next
    (match s.working with
    | some (a, f, .forceClosing g prev rq sw i n) =>
      let n' := n + (s.holdsRecordOf g i).toNat
      let t := s.retireOwned g i
      match nextSlot i with
      | some j => t.setWork (.forceClosing g prev rq sw j n')
      | none =>
        (t.closeSession g).post a
          (f.answer [toByte prev.code, toByte (rq.toNat + 2 * sw.toNat), toByte n'])
    | _ => s)

/-! ## Lapses -/

/-- LEASE_EXPIRY (R135): a running timer reaches 0; the session lapses and a sweep is queued. A timer that does not
run does not expire. -/
def execLeaseExpiry (a : Agent) (s : State) : Host.Outcome State Fault Refusal :=
  .next
    (if s.timerRuns a then
      ((s.setSession a { s.sessions[a] with state := .lapsed, timer := 0 }).setPort a
        { s.ports[a] with request := .sweepQueued }).arbitrate
    else s)

/-- LAPSE_SWEEP (R136, R156): the sweep that the arbiter serves begins its visits. -/
def execLapseSweep (s : State) : Host.Outcome State Fault Refusal :=
  .next
    (let t := s.arbitrate
    match t.engine.op with
    | some { agent := a, sweep := true, work := .chosen } =>
      if t.ports[a].request = .sweepActive then t.setWork (.sweeping 0) else s
    | _ => s)

/-- R137: the lapse action of the record in a slot, as it stands at the visit. -/
def State.applyLapse (s : State) (i : SlotIx) (r : Record) : State :=
  match r.lapse with
  | .keep => s.setRecord i (settled ({ r with orphan := true }, [.lapsed]))
  | .park =>
    let h := r.halt
    s.setRecord i (settled ({ h.1 with orphan := true }, h.2 ++ [.lapsed]))
  | .retire => s.retireSlot i

/-- R136: one visit of the sweep of an agent's records. -/
def State.sweepSlot (s : State) (a : Agent) (i : SlotIx) : State :=
  match s.slots[i].record with
  | some r => if r.owner = a then s.applyLapse i r else s
  | none => s

/-- LAPSE_SWEEP_VISIT (R136, R137, R162): one visit; after slot 31 the slot becomes EMPTY and nothing is posted. -/
def execLapseSweepVisit (s : State) : Host.Outcome State Fault Refusal :=
  .next
    (match s.engine.op with
    | some { agent := a, sweep := true, work := .sweeping i } =>
      let t := s.sweepSlot a i
      match nextSlot i with
      | some j => t.setWork (.sweeping j)
      | none => ((t.setPort a { t.ports[a] with request := .empty }).setOp none).arbitrate
    | _ => s)

/-! ## Adoption -/

/-- R141: ADOPT gives a record to an OPEN agent and clears its orphan mark. -/
def adoptBody (_ : Agent) (p : List Byte) (s : State) : Except Status Reply := do
  let h ← field (Handle.ofWord (wordAt p 0))
  let g ← field (agentOfByte (byteAt p 2))
  let r ← s.current h
  require .badState (s.sessions[g].state == .opened)
  require .pinDenied (match r.pin with | some q => s.granted g q | none => true)
  return .answered (s.setRecord h.slot { r with owner := g, orphan := false }) []

/-- ADOPT (R141). -/
def execAdopt (s : State) : Host.Outcome State Fault Refusal :=
  .next (s.carryOut .adopt adoptBody)

end Sys2Proof.Machine
end

