-- ==== Sys2Proof/Machine/Dispatch.lean ====
section
/-! DEFINITION. The meaning of each command of the table, one arm for each. -/

namespace Sys2Proof.Machine

/-- The effect of a command on everything but the queue of commands. -/
def exec (i : Instr) (s : State) : Host.Outcome State Fault Refusal :=
  match i with
  | .powerOn => Sys2Proof.Machine.execPowerOn s
  | .resetnAssertion => Sys2Proof.Machine.execResetnAssertion s
  | .resetnRelease => Sys2Proof.Machine.execResetnRelease s
  | .requestTransaction x => Sys2Proof.Machine.execRequestTransaction x s
  | .fetchTransaction x => Sys2Proof.Machine.execFetchTransaction x s
  | .statusTransaction x => Sys2Proof.Machine.execStatusTransaction x s
  | .unknownRequest => Sys2Proof.Machine.execUnknownRequest s
  | .openSession => Sys2Proof.Machine.execOpenSession s
  | .closeSession => Sys2Proof.Machine.execCloseSession s
  | .closeVisit => Sys2Proof.Machine.execCloseVisit s
  | .ping => Sys2Proof.Machine.execPing s
  | .setAttention => Sys2Proof.Machine.execSetAttention s
  | .collect => Sys2Proof.Machine.execCollect s
  | .collectVisit => Sys2Proof.Machine.execCollectVisit s
  | .create => Sys2Proof.Machine.execCreate s
  | .retire => Sys2Proof.Machine.execRetire s
  | .linkFreeVisit => Sys2Proof.Machine.execLinkFreeVisit s
  | .readRecord => Sys2Proof.Machine.execReadRecord s
  | .findByPin => Sys2Proof.Machine.execFindByPin s
  | .findByTag => Sys2Proof.Machine.execFindByTag s
  | .findByTagVisit => Sys2Proof.Machine.execFindByTagVisit s
  | .setTag => Sys2Proof.Machine.execSetTag s
  | .setLapse => Sys2Proof.Machine.execSetLapse s
  | .setNotices => Sys2Proof.Machine.execSetNotices s
  | .start => Sys2Proof.Machine.execStart s
  | .arm => Sys2Proof.Machine.execArm s
  | .stop => Sys2Proof.Machine.execStop s
  | .setLevel => Sys2Proof.Machine.execSetLevel s
  | .setTiming => Sys2Proof.Machine.execSetTiming s
  | .cancelStaged => Sys2Proof.Machine.execCancelStaged s
  | .startGroup => Sys2Proof.Machine.execStartGroup s
  | .startGroupVisit => Sys2Proof.Machine.execStartGroupVisit s
  | .link => Sys2Proof.Machine.execLink s
  | .unlink => Sys2Proof.Machine.execUnlink s
  | .setLink => Sys2Proof.Machine.execSetLink s
  | .listLinks => Sys2Proof.Machine.execListLinks s
  | .move => Sys2Proof.Machine.execMove s
  | .configPin => Sys2Proof.Machine.execConfigPin s
  | .grantPins => Sys2Proof.Machine.execGrantPins s
  | .readPins => Sys2Proof.Machine.execReadPins s
  | .setTimebase => Sys2Proof.Machine.execSetTimebase s
  | .runTimebase => Sys2Proof.Machine.execRunTimebase s
  | .haltTimebase => Sys2Proof.Machine.execHaltTimebase s
  | .setDivisor => Sys2Proof.Machine.execSetDivisor s
  | .readTimebase => Sys2Proof.Machine.execReadTimebase s
  | .configInhibit => Sys2Proof.Machine.execConfigInhibit s
  | .clearInhibit => Sys2Proof.Machine.execClearInhibit s
  | .readInhibit => Sys2Proof.Machine.execReadInhibit s
  | .adopt => Sys2Proof.Machine.execAdopt s
  | .forceClose => Sys2Proof.Machine.execForceClose s
  | .forceCloseVisit => Sys2Proof.Machine.execForceCloseVisit s
  | .restart => Sys2Proof.Machine.execRestart s
  | .restartVisit => Sys2Proof.Machine.execRestartVisit s
  | .readDevice => Sys2Proof.Machine.execReadDevice s
  | .leaseExpiry a => Sys2Proof.Machine.execLeaseExpiry a s
  | .lapseSweep => Sys2Proof.Machine.execLapseSweep s
  | .lapseSweepVisit => Sys2Proof.Machine.execLapseSweepVisit s
  | .tick b => Sys2Proof.Machine.execTick b s
  | .edge p d => Sys2Proof.Machine.execEdge p d s
  | .assertion g => Sys2Proof.Machine.execAssertion g s
  | .deassertion g => Sys2Proof.Machine.execDeassertion g s
  | .headerType0Transaction x => Sys2Proof.Machine.execHeaderType0Transaction x s
  | .observedLevelChange p board => Sys2Proof.Machine.execObservedLevelChange p board s

end Sys2Proof.Machine
end

