-- ==== Sys2Proof/Safety.lean ====
section
/-! DEFINITION. Which commands can occur in a state: what the part, its clock and its hosts could bring about there. A
command that cannot occur leaves the state as it is (log entry 2), so a run of commands that can all occur is a run of
the part. -/

namespace Sys2Proof.Machine

/-- R158: the engine is serving a request of this code. -/
def State.serves (s : State) (c : ReqCode) : Bool :=
  match s.arbitrate.serving with
  | some (_, f) => f.code == c.byte
  | none => false

/-- R158: the engine is serving a request whose code is in no table. -/
def State.servesUnknown (s : State) : Bool :=
  match s.arbitrate.serving with
  | some (_, f) => !knownCode f.code
  | none => false

/-- R162: the work of the request in progress has a property. -/
def State.worksOn (s : State) (p : Work → Bool) : Bool :=
  match s.working with
  | some (_, _, w) => p w
  | none => false

/-- R136: the arbiter has chosen a sweep that has not begun its visits. -/
def State.servesSweep (s : State) : Bool :=
  match s.arbitrate.engine.op with
  | some { agent := a, sweep := true, work := .chosen } => s.arbitrate.ports[a].request == .sweepActive
  | _ => false

/-- R136: a sweep is at its visits. -/
def State.sweeps (s : State) : Bool :=
  match s.engine.op with
  | some { agent := _, sweep := true, work := .sweeping _ } => true
  | _ => false

/-- R168, R170: the stretch of a transaction can follow what the port has received, as one of its type. -/
def State.canTransfer (s : State) (type : Nat) (x : Transfer) : Bool :=
  x.opens != s.csnLow && !(s.transferType x).any (· != type)

/-- Whether a command can occur in a state. A TICK of a RUNNING PIN base can occur whatever the level of its count pin,
since it stands for the tick of an edge that is not given as a row EDGE as well (DESIGN CHOICE, log entry 27). A line
event changes the line level while RESETn is high and moves the input alone while it is low (DESIGN CHOICE, log entry
17). -/
def canOccur (i : Instr) (s : State) : Bool :=
  match i with
  | .powerOn => true
  | .resetnAssertion => s.resetn == .high
  | .resetnRelease => s.resetn != .high
  | .requestTransaction x => s.canTransfer 1 x
  | .fetchTransaction x => s.canTransfer 2 x
  | .statusTransaction x => s.canTransfer 3 x
  | .unknownRequest => s.servesUnknown
  | .openSession => s.serves .openSession
  | .closeSession => s.serves .closeSession
  | .closeVisit => s.worksOn fun w => match w with | .closing _ _ => true | _ => false
  | .ping => s.serves .ping
  | .setAttention => s.serves .setAttention
  | .collect => s.serves .collect
  | .collectVisit => s.worksOn fun w => match w with | .collecting _ _ => true | _ => false
  | .create => s.serves .create
  | .retire => s.serves .retire
  | .linkFreeVisit => s.worksOn fun w => match w with | .retiring _ _ => true | _ => false
  | .readRecord => s.serves .readRecord
  | .findByPin => s.serves .findByPin
  | .findByTag => s.serves .findByTag
  | .findByTagVisit => s.worksOn fun w => match w with | .finding _ _ _ => true | _ => false
  | .setTag => s.serves .setTag
  | .setLapse => s.serves .setLapse
  | .setNotices => s.serves .setNotices
  | .start => s.serves .start
  | .arm => s.serves .arm
  | .stop => s.serves .stop
  | .setLevel => s.serves .setLevel
  | .setTiming => s.serves .setTiming
  | .cancelStaged => s.serves .cancelStaged
  | .startGroup => s.serves .startGroup
  | .startGroupVisit => s.worksOn fun w => match w with | .grouping _ (_ :: _) _ _ => true | _ => false
  | .link => s.serves .link
  | .unlink => s.serves .unlink
  | .setLink => s.serves .setLink
  | .listLinks => s.serves .listLinks
  | .move => s.serves .move
  | .configPin => s.serves .configPin
  | .grantPins => s.serves .grantPins
  | .readPins => s.serves .readPins
  | .setTimebase => s.serves .setTimebase
  | .runTimebase => s.serves .runTimebase
  | .haltTimebase => s.serves .haltTimebase
  | .setDivisor => s.serves .setDivisor
  | .readTimebase => s.serves .readTimebase
  | .configInhibit => s.serves .configInhibit
  | .clearInhibit => s.serves .clearInhibit
  | .readInhibit => s.serves .readInhibit
  | .adopt => s.serves .adopt
  | .forceClose => s.serves .forceClose
  | .forceCloseVisit => s.worksOn fun w => match w with | .forceClosing _ _ _ _ _ _ => true | _ => false
  | .restart => s.serves .restart
  | .restartVisit => s.worksOn fun w => match w with | .restarting _ _ _ => true | _ => false
  | .readDevice => s.serves .readDevice
  | .leaseExpiry a => s.timerRuns a
  | .lapseSweep => s.servesSweep
  | .lapseSweepVisit => s.sweeps
  | .tick b => s.bases[b].running
  | .edge p d => s.resetn == .high && s.pins[p].filtered != edgeLevel d
  | .assertion g => if s.resetn = .high then !(s.group g).line else !(s.group g).input
  | .deassertion g => if s.resetn = .high then (s.group g).line else (s.group g).input
  | .headerType0Transaction x => s.canTransfer 0 x
  | .observedLevelChange _ _ => true

/-- A safe run: every command of the list can occur when it is carried out, and none stops the part. -/
def safeRun (s : State) : List Instr → Prop
  | [] => True
  | c :: rest => canOccur c s = true ∧ ∃ t, exec c s = .next t ∧ safeRun t rest

/-! ## What a request's outcome is said in -/

/-- The command that carries out a request of this code. -/
def ReqCode.command : ReqCode → Instr
  | .openSession => .openSession
  | .closeSession => .closeSession
  | .ping => .ping
  | .setAttention => .setAttention
  | .collect => .collect
  | .create => .create
  | .retire => .retire
  | .readRecord => .readRecord
  | .findByPin => .findByPin
  | .findByTag => .findByTag
  | .setTag => .setTag
  | .setLapse => .setLapse
  | .setNotices => .setNotices
  | .start => .start
  | .arm => .arm
  | .stop => .stop
  | .setLevel => .setLevel
  | .setTiming => .setTiming
  | .cancelStaged => .cancelStaged
  | .startGroup => .startGroup
  | .link => .link
  | .unlink => .unlink
  | .setLink => .setLink
  | .listLinks => .listLinks
  | .move => .move
  | .configPin => .configPin
  | .grantPins => .grantPins
  | .readPins => .readPins
  | .setTimebase => .setTimebase
  | .runTimebase => .runTimebase
  | .haltTimebase => .haltTimebase
  | .setDivisor => .setDivisor
  | .readTimebase => .readTimebase
  | .configInhibit => .configInhibit
  | .clearInhibit => .clearInhibit
  | .readInhibit => .readInhibit
  | .adopt => .adopt
  | .forceClose => .forceClose
  | .restart => .restart
  | .readDevice => .readDevice

/-- R158 checks 1 and 4: the engine is serving agent `a`'s request of code `c`, with sequence number `q` and parameter
bytes `p`, and the agent's session and privilege allow it. -/
def State.carries (s : State) (a : Agent) (c : ReqCode) (q : Byte) (p : List Byte) : Prop :=
  s.serving = some (a, { seq := q, code := c.byte, params := p }) ∧
    (c = .openSession ∨ s.sessions[a].state = .opened) ∧ (c.sup = true → a = 0)

/-- R161: the state with the OK response of a request posted. -/
def State.answers (s : State) (a : Agent) (c : ReqCode) (q : Byte) (data : List Byte) :
    Host.Outcome State Fault Refusal :=
  .next (s.post a { seq := q, code := c.byte, status := .ok, data := data })

/-- R160: the state with the refusal of a request posted. -/
def State.refuses (s : State) (a : Agent) (c : ReqCode) (q : Byte) (st : Status) : Host.Outcome State Fault Refusal :=
  .next (s.post a { seq := q, code := c.byte, status := st, data := [] })

/-! ## Laws that every step keeps -/

/-- R143: every notice in the again set is in the pending set, and every notice in the pending set is in the enable
set. -/
def Record.noticesNested (r : Record) : Prop :=
  r.againSet &&& r.pendingSet = r.againSet ∧ r.pendingSet &&& r.enableSet = r.pendingSet

/-- R143, for every record of the table. -/
def State.noticesNested (s : State) : Prop :=
  ∀ (i : SlotIx) (r : Record), s.slots[i].record = some r → r.noticesNested

/-- R37, R56: the counter of a record of a timed kind is below its period, and a staged copy has a period that is not 0
and belongs to a RUNNING record of a periodic kind. -/
def Record.timingSound (r : Record) : Prop :=
  (r.kind.timed = true → r.counter.toNat < r.timing.period.toNat) ∧
    ∀ t, r.staged = some t → t.period ≠ 0 ∧ r.state = .running ∧ r.kind.periodic = true

/-- R37, R56, for every record of the table. -/
def State.timingSound (s : State) : Prop :=
  ∀ (i : SlotIx) (r : Record), s.slots[i].record = some r → r.timingSound

/-- R153, R156: an idle engine leaves nothing queued, and a request slot is ACTIVE or SWEEP_ACTIVE exactly when the
engine's operation is that agent's request or sweep. -/
def State.engineAgrees (s : State) : Prop :=
  (∀ a : Agent, s.engine.op = none → (s.ports[a].request.chosen).isNone = true) ∧
  (∀ a : Agent, (∃ f, s.ports[a].request = .active f) ↔ ∃ w, s.engine.op = some { agent := a, sweep := false, work := w }) ∧
  (∀ a : Agent, s.ports[a].request = .sweepActive ↔ ∃ w, s.engine.op = some { agent := a, sweep := true, work := w })

/-- R102: the pin table's claims and the records' pin fields state the same facts, and a claimed pin has role
OUTPUT. -/
def State.claimsAgree (s : State) : Prop :=
  (∀ (p : Pin) (h : Handle), s.pins[p].claim = some h →
    s.pins[p].config.role = .output ∧ ∃ r, s.record? h = some r ∧ r.pin = some p) ∧
  (∀ (i : SlotIx) (r : Record) (p : Pin), s.slots[i].record = some r → r.pin = some p →
    s.pins[p].claim = some (s.handleAt i))

end Sys2Proof.Machine
end

