-- ==== Sys2Proof/Certificates/Slice0/Obligations.lean ====
section
/-! DEFINITION. The statements about the IB-2432. A request's parameter bytes are written out from R178 and R179, so a
statement about a request holds for every well-coded parameter; `s.carries a c q p` says that the engine is serving it
(R158 checks 1 and 4), and `answers` and `refuses` that it ends with its response posted (R160, R161). -/

open Sys2Proof Sys2Proof.Machine

/-! ## The step, the clock and the resets -/

/-- A step carries out the command at the front of the queue with the queue's rest. -/
def Obligations.StepTakesFrontCommand : Prop :=
  ∀ (c : Instr) (rest : List Instr) (s : State),
    step { s with pending := c :: rest } = exec c { s with pending := rest }

/-- MODEL'S CHOICE (log entry 3): while no command waits and RESETn is high, a step is one core-clock period. R27: a
RUNNING CORE base counts it. R134: a running lease timer counts it. R110: every pin is sampled. R115: INH_A and INH_B
are sampled, each at a free level, since no row moves them (MODEL'S CHOICE, log entry 17), and a sample leaves the line
level, the enable, the policy and the state of the group. That an edge or a line event comes due at the second sample
that differs from the filtered level or the line level, and none does without one such sample before it, is the model's
reading of R110 and R115 (DEDUCED, log entry 19). The events that come due wait in the queue, each once. -/
def Obligations.EmptyQueueIsOneClockPeriod : Prop :=
  ∀ s : State, s.pending = [] → s.resetn = .high → ∃ t : State, step s = .next t ∧
    (∀ (b : Base) (i : Interval), s.bases[b].running = true → s.bases[b].interval = some i →
      (i.count + 1 < i.inForce →
        t.bases[b] = { s.bases[b] with interval := some { count := i.count + 1, inForce := i.inForce } } ∧
        Instr.tick b ∉ t.pending) ∧
      (i.inForce ≤ i.count + 1 →
        t.bases[b] = { s.bases[b] with interval := some { count := 0, inForce := s.bases[b].divisor } } ∧
        t.pending.count (.tick b) = 1)) ∧
    (∀ b : Base, s.bases[b].interval = none → t.bases[b] = s.bases[b] ∧ Instr.tick b ∉ t.pending) ∧
    (∀ a : Agent, (s.timerRuns a = true →
        t.sessions[a] = { s.sessions[a] with timer := s.sessions[a].timer - 1 } ∧
        t.pending.count (.leaseExpiry a) = if s.sessions[a].timer ≤ 1 then 1 else 0) ∧
      (s.timerRuns a = false → t.sessions[a] = s.sessions[a] ∧ Instr.leaseExpiry a ∉ t.pending)) ∧
    (∀ p : Pin, t.pins[p] = { s.pins[p] with
        observed := s.levelAt p, narrow := s.levelAt p != s.pins[p].filtered } ∧
      (s.pins[p].narrow = true → s.levelAt p ≠ s.pins[p].filtered →
        t.pending.count (.edge p (edgeFrom s.pins[p].filtered)) = 1) ∧
      (s.pins[p].narrow = false → ∀ d, Instr.edge p d ∉ t.pending)) ∧
    (∀ g : Group, t.group g = { s.group g with
        input := s.inhibitAt g, narrow := s.inhibitAt g != (s.group g).line } ∧
      ((s.group g).narrow = true → s.inhibitAt g ≠ (s.group g).line →
        t.pending.count (if (s.group g).line = true then .deassertion g else .assertion g) = 1) ∧
      ((s.group g).narrow = false → Instr.assertion g ∉ t.pending ∧ Instr.deassertion g ∉ t.pending) ∧
      (if (s.group g).line = true then Instr.assertion g else .deassertion g) ∉ t.pending) ∧
    t.slots = s.slots ∧ t.links = s.links ∧ t.ports = s.ports ∧ t.engine = s.engine ∧ t.resetn = s.resetn ∧
    t.csnLow = s.csnLow ∧ t.receiver = s.receiver ∧ t.sdo = s.sdo ∧ t.sdoBits = s.sdoBits

/-- R24, R25, R69, R91, R114, R128, R152 to R154, R169: the values after power-on. (The outside levels that
`State.reset` also holds are the model's choice, log entry 8, and are not stated.) -/
def Obligations.StateAfterPowerOn : Prop :=
  (∀ i : SlotIx, State.reset.slots[i] = { gen := 0, record := none }) ∧
  (∀ b : Base, State.reset.bases[b] =
    { source := .core, divisor := 1, running := false, latch := false, interval := none }) ∧
  (∀ i : LinkIx, State.reset.links[i] = none) ∧
  (∀ p : Pin, State.reset.pins[p].config =
      { role := .off, drive := .pushPull, pull := .none, idle := .low, safe := .float, group := none } ∧
    State.reset.pins[p].grants = 0 ∧ State.reset.pins[p].claim = none ∧ State.reset.pins[p].links = []) ∧
  (∀ g : Group, (State.reset.group g).enabled = false ∧ (State.reset.group g).policy = .auto ∧
    (State.reset.group g).state = .clear) ∧
  (∀ a : Agent, State.reset.sessions[a] = { state := .closed, lease := 0, timer := 0, attention := false } ∧
    State.reset.ports[a] = { request := .empty, response := none, overrun := false, lost := false,
                             crcError := false, frameError := false }) ∧
  State.reset.engine = { op := none, lastServed := 3, cause := .powerOn } ∧ State.reset.receiver = none

/-- R24, R25, R69, R91, R114, R128, R152 to R154, R167, R169: POWER_ON in any state (MODEL'S CHOICE, log entry 24), and
RESETN_ASSERTION while RESETn is high, put every block at its reset values, with SDO at high impedance. MODEL'S CHOICES:
filtered levels and line levels are taken from the inputs at both (log entry 8; R91, R92, R114 and R115 take them at the
release of RESETn); and the reset cause, POWER_ON after the one, is kept by the other until the release (log entry
16). -/
def Obligations.ResetsClearEveryBlock : Prop :=
  ∀ (s : State) (c : Instr), (c = .powerOn ∨ (c = .resetnAssertion ∧ s.resetn = .high)) →
    ∃ t : State, exec c s = .next t ∧
      (∀ i : SlotIx, t.slots[i] = { gen := 0, record := none }) ∧
      (∀ b : Base, t.bases[b] =
        { source := .core, divisor := 1, running := false, latch := false, interval := none }) ∧
      (∀ i : LinkIx, t.links[i] = none) ∧
      (∀ p : Pin, t.pins[p].config =
          { role := .off, drive := .pushPull, pull := .none, idle := .low, safe := .float, group := none } ∧
        t.pins[p].grants = 0 ∧ t.pins[p].claim = none ∧ t.pins[p].links = [] ∧
        t.pins[p].filtered = t.pins[p].observed ∧ t.pins[p].board = s.pins[p].board ∧
        (∀ v, s.pins[p].board = some v → t.pins[p].observed = v)) ∧
      (∀ g : Group, t.group g = { enabled := false, policy := .auto, state := .clear, line := (s.group g).input,
                                  input := (s.group g).input, narrow := false }) ∧
      (∀ a : Agent, t.sessions[a] = { state := .closed, lease := 0, timer := 0, attention := false } ∧
        t.ports[a] = { request := .empty, response := none, overrun := false, lost := false,
                       crcError := false, frameError := false }) ∧
      t.engine = { op := none, lastServed := 3, cause := if c = .powerOn then .powerOn else s.engine.cause } ∧
      t.resetn = (if c = .powerOn then (if s.resetn = .high then .high else .lowSincePowerOn) else .low) ∧
      t.receiver = none ∧ t.sdoByte = none ∧ t.csnLow = s.csnLow ∧ t.pending = s.pending

/-- R92, R115, R167: the release of RESETn takes the filtered levels and the line levels from the inputs, sets the
reset cause to RESET_LINE unless RESETn has been low since power-on, and changes nothing else. -/
def Obligations.ResetnReleaseTakesLevels : Prop :=
  ∀ s : State, s.resetn ≠ .high → ∃ t : State, exec .resetnRelease s = .next t ∧
    t.resetn = .high ∧
    t.engine = { s.engine with cause := if s.resetn = .low then .resetLine else s.engine.cause } ∧
    (∀ p : Pin, t.pins[p] = { s.pins[p] with
        observed := t.pins[p].filtered, filtered := t.pins[p].filtered, narrow := false } ∧
      (∀ v, s.pins[p].board = some v → t.pins[p].filtered = v)) ∧
    (∀ g : Group, t.group g = { s.group g with line := (s.group g).input, narrow := false }) ∧
    t.slots = s.slots ∧ t.bases = s.bases ∧ t.links = s.links ∧ t.sessions = s.sessions ∧ t.ports = s.ports ∧
    t.csnLow = s.csnLow ∧ t.receiver = s.receiver ∧ t.pending = s.pending

/-- MODEL'S CHOICE (log entry 2): a command that cannot occur in a state leaves the state as it is. -/
def Obligations.CommandThatCannotOccurChangesNothing : Prop :=
  ∀ (c : Instr) (s : State), canOccur c s = false → exec c s = .next s

/-! ## The host port (chapter 10) -/

/-- R168, R170, R171, R173: a whole REQUEST transaction of a frame with a good length and CRC-8. The part sends 0x00,
the agent's status byte and 0x00 for each further byte; the flags the status byte shows are cleared; and the frame
arrives at the slot of the header's agent (R155, `Obligations.ArrivalFillsRequestSlot`). -/
def Obligations.GoodRequestTransactionArrives : Prop :=
  ∀ (s : State) (a : Agent) (k : Fin 16) (q c : Byte) (p : List Byte), s.resetn = .high → s.csnLow = false →
    p.length ≤ 28 →
    exec (.requestTransaction
        { opens := true, bits := 0, closes := true,
          bytes := [toByte (64 * a.val + 16 + k.val), q, c, toByte p.length] ++ p ++
            [crc8 ([toByte (64 * a.val + 16 + k.val), q, c, toByte p.length] ++ p)] }) s =
      .next (({ s with
          csnLow := false
          receiver := none
          sdo := [0, s.statusByte a] ++ List.replicate (p.length + 3) 0
          sdoBits := []
          ports := put s.ports a
            { s.ports[a] with overrun := false, lost := false, crcError := false, frameError := false } }).arrive a
        { seq := q, code := c, params := p })

/-- R155, R156: an arrival at an EMPTY request slot queues the frame, discards a READY response with the lost flag, and
is chosen at once if the engine is idle with nothing else queued; at any other request slot it is dropped with the
overrun flag. -/
def Obligations.ArrivalFillsRequestSlot : Prop :=
  ∀ (s : State) (a : Agent) (f : Frame),
    (s.ports[a].request = .empty → ∀ o, s.engine.op = some o →
      s.arrive a f = { s with ports := put s.ports a { s.ports[a] with
        request := .queued f, response := none, lost := s.ports[a].lost || s.ports[a].response.isSome } }) ∧
    (s.ports[a].request = .empty → s.engine.op = none → (∀ b : Agent, (s.ports[b].request.chosen).isNone = true) →
      s.arrive a f = { s with
        ports := put s.ports a { s.ports[a] with
          request := .active f, response := none, lost := s.ports[a].lost || s.ports[a].response.isSome }
        engine := { s.engine with
          op := some { agent := a, sweep := false, work := .chosen }, lastServed := a } }) ∧
    (s.ports[a].request ≠ .empty →
      s.arrive a f = { s with ports := put s.ports a { s.ports[a] with overrun := true } })

/-- R173 to R175: a whole REQUEST transaction that reaches byte 1 and is malformed is dropped. Fewer than four whole
bytes, a length byte above 28, a wrong count of bytes or a partial last byte set the frame-error flag; a CRC-8 that
does not match sets the CRC-error flag. Nothing else of the part changes. The CRC-8 is R174's: a register that starts at
0xFF takes each byte by exclusive-OR and eight shifts, each followed by 0x07 when the bit that left was 1. -/
def Obligations.MalformedRequestTransactionIsDropped : Prop :=
  (∀ (s : State) (a : Agent) (k : Fin 16) (q : Byte) (rest : List Byte) (bits : Fin 8), s.resetn = .high →
    s.csnLow = false →
    let bytes := toByte (64 * a.val + 16 + k.val) :: q :: rest
    let n := (bytes.getD 3 0).toNat
    let ends (crc frame : Bool) : Host.Outcome State Fault Refusal :=
      .next { s with
        csnLow := false
        receiver := none
        sdo := [0, s.statusByte a] ++ List.replicate rest.length 0
        sdoBits := List.replicate bits.val false
        ports := put s.ports a
          { s.ports[a] with overrun := false, lost := false, crcError := crc, frameError := frame } }
    let run := exec (.requestTransaction { opens := true, bytes := bytes, bits := bits, closes := true }) s
    ((rest.length < 2 ∨ 28 < n ∨ bytes.length ≠ 5 + n ∨ bits ≠ 0) → run = ends false true) ∧
    (2 ≤ rest.length → n ≤ 28 → bytes.length = 5 + n → bits = 0 →
      bytes.getD (4 + n) 0 ≠ crc8 (bytes.take (4 + n)) → run = ends true false)) ∧
  (let shift (r : Byte) : Byte := if r.getLsbD 7 then (r <<< 1) ^^^ 0x07#8 else r <<< 1
   crc8 [] = 0xFF ∧ ∀ (covered : List Byte) (b : Byte), crc8 (covered ++ [b]) = shift^[8] (crc8 covered ^^^ b))

/-- R168, R171, R175 to R177, R180: a whole FETCH transaction that reaches byte 1. With a READY response and no request
waiting or served, the part sends the response frame from byte 2 (the sequence number, the code, the status by its code,
the data length, the data and the CRC-8 of them) and 0x00 after it, and takes it from the slot if its last byte was
completed; else it sends the empty frame and takes nothing. A transaction that ends before the last byte of the frame
sent sets the frame-error flag. -/
def Obligations.FetchTransactionSendsResponse : Prop :=
  ∀ (s : State) (a : Agent) (k : Fin 16) (x : Byte) (rest : List Byte) (bits : Fin 8), s.resetn = .high →
    s.csnLow = false →
    let run := exec (.fetchTransaction
      { opens := true, bytes := toByte (64 * a.val + 32 + k.val) :: x :: rest, bits := bits, closes := true }) s
    let code (st : Status) : Byte := match st with
      | .ok => 0x00 | .noSession => 0x01 | .unknownRequest => 0x02 | .badLength => 0x03 | .privilege => 0x04
      | .badValue => 0x05 | .staleHandle => 0x06 | .notOwner => 0x07 | .noSlot => 0x08 | .pinDenied => 0x09
      | .pinBusy => 0x0A | .recordBusy => 0x0B | .badState => 0x0C | .linkFull => 0x0D | .linkLimit => 0x0E
      | .linkDuplicate => 0x0F | .baseMismatch => 0x10 | .inhibitActive => 0x11 | .lapsed => 0x12
      | .restarted => 0x13 | .closed => 0x14
    let frame (r : Response) : List Byte :=
      let covered := r.seq :: r.code :: code r.status :: BitVec.ofNat 8 r.data.length :: r.data
      covered ++ [crc8 covered]
    let ends (frame : List Byte) (response : Option Response) : Host.Outcome State Fault Refusal :=
      .next { s with
        csnLow := false
        receiver := none
        sdo := [0, s.statusByte a] ++ (List.range rest.length).map fun j => frame.getD j 0
        sdoBits := (List.range bits.val).map fun j => (frame.getD rest.length 0).getMsbD j
        ports := put s.ports a
          { s.ports[a] with
            response := response, overrun := false, lost := false, crcError := false,
            frameError := decide (rest.length < frame.length) } }
    (∀ r, s.ports[a].response = some r → (∀ f, s.ports[a].request ≠ .queued f ∧ s.ports[a].request ≠ .active f) →
      run = ends (frame r) (if rest.length < (frame r).length then some r else none)) ∧
    ((s.ports[a].response = none ∨ ∃ f, s.ports[a].request = .queued f ∨ s.ports[a].request = .active f) →
      run = ends [0, 0, 0, 0, 0xD1] s.ports[a].response)

/-- R168 to R171, R175: a whole STATUS transaction of two bytes returns the status byte, laid out as R171 gives it, and
clears the flags it shows; a longer one sets the frame-error flag as well. A transaction with header type 0 does so at
any length. Of any type, a transaction that ends before byte 0 is complete names no agent and sets no flag; one that
ends after byte 0 and before byte 1 is complete clears no flag, takes nothing and sets the frame-error flag. SDO is at
high impedance while CSn is high or RESETn is low, and a transaction that opens while RESETn is low is ignored to its
end, with SDO undriven (after a release of RESETn within it, MODEL'S CHOICE, log entry 15). -/
def Obligations.StatusAndCutTransactions : Prop :=
  (∀ (s : State) (a : Agent) (k : Fin 16) (bits : Fin 8), s.resetn = .high → s.csnLow = false →
    let x (bytes : List Byte) : Transfer := { opens := true, bytes := bytes, bits := bits, closes := true }
    let h (t : Nat) : Byte := toByte (64 * a.val + 16 * t + k.val)
    let ends (n : Nat) (frame : Bool) : Host.Outcome State Fault Refusal :=
      .next { s with
        csnLow := false
        receiver := none
        sdo := [0, s.statusByte a] ++ List.replicate n 0
        sdoBits := List.replicate bits.val false
        ports := put s.ports a
          { s.ports[a] with overrun := false, lost := false, crcError := false, frameError := frame } }
    let none_ : Host.Outcome State Fault Refusal :=
      .next { s with csnLow := false, receiver := none, sdo := [], sdoBits := List.replicate bits.val false }
    let cut : Host.Outcome State Fault Refusal :=
      .next { s with
        csnLow := false
        receiver := none
        sdo := [0]
        sdoBits := (List.range bits.val).map fun j => (s.statusByte a).getMsbD j
        ports := put s.ports a { s.ports[a] with frameError := true } }
    (∀ (y : Byte) (rest : List Byte),
      exec (.statusTransaction (x (h 3 :: y :: rest))) s = ends rest.length (!(rest.isEmpty && bits == 0)) ∧
      exec (.headerType0Transaction (x (h 0 :: y :: rest))) s = ends rest.length true) ∧
    exec (.requestTransaction (x [])) s = none_ ∧ exec (.fetchTransaction (x [])) s = none_ ∧
    exec (.statusTransaction (x [])) s = none_ ∧ exec (.headerType0Transaction (x [])) s = none_ ∧
    exec (.requestTransaction (x [h 1])) s = cut ∧ exec (.fetchTransaction (x [h 2])) s = cut ∧
    exec (.statusTransaction (x [h 3])) s = cut ∧ exec (.headerType0Transaction (x [h 0])) s = cut) ∧
  (∀ (s : State) (a : Agent),
    let b := s.statusByte a
    b.toNat % 4 = (match s.ports[a].request with
      | .empty => 0
      | .queued _ => 1
      | .active _ => 2
      | .sweepQueued | .sweepActive => 3) ∧
    b.getLsbD 2 = s.ports[a].response.isSome ∧ b.getLsbD 3 = s.ports[a].overrun ∧ b.getLsbD 4 = s.ports[a].lost ∧
    b.getLsbD 5 = s.ports[a].crcError ∧ b.getLsbD 6 = s.ports[a].frameError ∧ b.getLsbD 7 = s.attn) ∧
  (∀ s : State, s.csnLow = false ∨ s.resetn ≠ .high ∨ s.receiver = none → s.sdoByte = none) ∧
  (∀ (s : State) (c : Transfer → Instr) (type : Nat) (bytes : List Byte) (bits : Fin 8) (closes : Bool),
    (c, type) ∈ [(Instr.headerType0Transaction, 0), (Instr.requestTransaction, 1), (Instr.fetchTransaction, 2),
      (Instr.statusTransaction, 3)] →
    (s.csnLow = true → s.receiver = none →
      exec (c { opens := false, bytes := bytes, bits := bits, closes := closes }) s =
        .next { s with csnLow := !closes }) ∧
    (s.csnLow = false → s.resetn ≠ .high → (∀ h ∈ bytes.head?, h.toNat / 16 % 4 = type) →
      exec (c { opens := true, bytes := bytes, bits := bits, closes := closes }) s =
        .next { s with csnLow := !closes, receiver := none, sdo := [], sdoBits := [] }))

/-! ## The request engine (chapter 9) -/

/-- R156, R161: the posting of a response, up to the arbiter's next choice, changes its agent's slots and lease timer
and the operation in progress, and nothing else; the arbiter then chooses. An idle engine chooses the first agent after
the last-served one whose slot is queued; a busy engine, and one with nothing queued, chooses nothing. -/
def Obligations.PostingThenRoundRobinChoice : Prop :=
  ∀ s : State,
    (∀ (a : Agent) (r : Response), s.post a r = (State.arbitrate { s with
      ports := put s.ports a { s.ports[a] with request := .empty, response := some r }
      sessions := put s.sessions a { s.sessions[a] with timer := s.sessions[a].lease.toNat * 65536 }
      engine := { s.engine with op := none } })) ∧
    (∀ o, s.engine.op = some o → s.arbitrate = s) ∧
    (s.engine.op = none → (∀ a : Agent, (s.ports[a].request.chosen).isNone = true) → s.arbitrate = s) ∧
    (s.engine.op = none → ∀ k : Fin 4,
      let a : Agent := s.engine.lastServed + 1 + k
      (∀ j : Fin 4, j < k → (s.ports[s.engine.lastServed + 1 + j].request.chosen).isNone = true) →
      (∀ f, s.ports[a].request = .queued f →
        s.arbitrate = { s with
          ports := put s.ports a { s.ports[a] with request := .active f }
          engine := { s.engine with
            op := some { agent := a, sweep := false, work := .chosen }, lastServed := a } }) ∧
      (s.ports[a].request = .sweepQueued →
        s.arbitrate = { s with
          ports := put s.ports a { s.ports[a] with request := .sweepActive }
          engine := { s.engine with
            op := some { agent := a, sweep := true, work := .chosen }, lastServed := a } }))

/-- R158 checks 1 to 4, R160, R179: a request fails at the first of the session, code, length and privilege checks that
it does not pass, and the refusal changes nothing but the posting of its response. The codes, the parameter lengths and
the requests of the supervisor alone are those of R179's table. -/
def Obligations.FirstFailingCheckRefuses : Prop :=
  (∀ (s : State) (a : Agent) (f : Frame), s.serving = some (a, f) →
    (∀ c : ReqCode, f.code = c.byte →
      (c ≠ .openSession → s.sessions[a].state ≠ .opened →
        exec c.command s = s.refuses a c f.seq .noSession) ∧
      ((c = .openSession ∨ s.sessions[a].state = .opened) → c.lengthOk f.params = false →
        exec c.command s = s.refuses a c f.seq .badLength) ∧
      ((c = .openSession ∨ s.sessions[a].state = .opened) → c.lengthOk f.params = true → c.sup = true → a ≠ 0 →
        exec c.command s = s.refuses a c f.seq .privilege)) ∧
    ((∀ c : ReqCode, f.code ≠ c.byte) →
      exec .unknownRequest s = .next (s.post a
        { seq := f.seq, code := f.code, data := [],
          status := if s.sessions[a].state = .opened then .unknownRequest else .noSession }))) ∧
  (let row (c : ReqCode) (code : Byte) (sup : Bool) (n : Nat) : Prop :=
    c.byte = code ∧ c.sup = sup ∧ ∀ p : List Byte, c.lengthOk p = decide (p.length = n)
   row .openSession 0x01 false 1 ∧ row .closeSession 0x02 false 0 ∧ row .ping 0x03 false 0 ∧
   row .setAttention 0x04 false 1 ∧ row .collect 0x05 false 1 ∧
   row .create 0x10 false 14 ∧ row .retire 0x11 false 2 ∧ row .readRecord 0x12 false 2 ∧
   row .findByPin 0x13 false 1 ∧ row .findByTag 0x14 false 2 ∧ row .setTag 0x15 false 3 ∧
   row .setLapse 0x16 false 3 ∧ row .setNotices 0x17 false 4 ∧
   row .start 0x20 false 2 ∧ row .arm 0x21 false 2 ∧ row .stop 0x22 false 2 ∧ row .setLevel 0x23 false 3 ∧
   row .setTiming 0x24 false 8 ∧ row .cancelStaged 0x25 false 2 ∧
   (ReqCode.startGroup.byte = 0x26 ∧ ReqCode.startGroup.sup = false ∧ ReqCode.startGroup.lengthOk [] = false ∧
     ∀ (n : Byte) (p : List Byte), ReqCode.startGroup.lengthOk (n :: p) = decide (p.length = 2 * n.toNat)) ∧
   row .link 0x30 false 8 ∧ row .unlink 0x31 false 1 ∧ row .setLink 0x32 false 2 ∧ row .listLinks 0x33 false 4 ∧
   row .move 0x40 false 3 ∧ row .configPin 0x41 true 7 ∧
   (ReqCode.grantPins.byte = 0x42 ∧ ReqCode.grantPins.sup = true ∧
     ∀ p : List Byte, ReqCode.grantPins.lengthOk p = decide (1 ≤ p.length)) ∧
   row .readPins 0x43 false 3 ∧
   row .setTimebase 0x50 true 6 ∧ row .runTimebase 0x51 true 1 ∧ row .haltTimebase 0x52 true 1 ∧
   row .setDivisor 0x53 true 3 ∧ row .readTimebase 0x54 false 1 ∧
   row .configInhibit 0x60 true 3 ∧ row .clearInhibit 0x61 true 1 ∧ row .readInhibit 0x62 false 0 ∧
   row .adopt 0x70 true 3 ∧ row .forceClose 0x71 true 1 ∧ row .restart 0x72 true 0 ∧ row .readDevice 0x73 false 0)

/-- R2, R72, R73, R78, R86, R158 checks 5 to 7: a request that names a record is refused with BAD_VALUE for a handle
field of 512 or more, with STALE_HANDLE for a handle that is not current, and (but for the reads, and ADOPT, which the
supervisor alone may make) with NOT_OWNER for a requester that is neither the supervisor nor the owner. LINK names a
target and a record source, START_GROUP up to eight records, and LIST_LINKS a record source. -/
def Obligations.HandleAndOwnershipChecksRefuse : Prop :=
  ∀ (s : State) (a : Agent) (q : Byte),
    (∀ (c : ReqCode) (p : List Byte), c ∈ [.retire, .readRecord, .setTag, .setLapse, .setNotices, .start, .arm, .stop,
        .setLevel, .setTiming, .cancelStaged, .move, .adopt] → s.carries a c q p → c.lengthOk p = true →
      512 ≤ (p.getD 0 0).toNat + 256 * (p.getD 1 0).toNat → exec c.command s = s.refuses a c q .badValue) ∧
    (∀ (h : Handle) (c : ReqCode) (p : List Byte),
      ((c ∈ [.retire, .readRecord, .start, .arm, .stop, .cancelStaged] ∧ p = []) ∨
        (c = .setTag ∧ ∃ x, p = [x]) ∨ (c = .setLapse ∧ ∃ l : LapseAction, p = [toByte l.code]) ∨
        (c = .setNotices ∧ ∃ n : NoticeSet, p = wordBytes n.toNat) ∨
        (c = .setLevel ∧ ∃ v : Bool, p = [toByte v.toNat]) ∨
        (c = .setTiming ∧ ∃ t : Timing, t.period ≠ 0 ∧
          p = wordBytes t.period.toNat ++ wordBytes t.markA.toNat ++ wordBytes t.markB.toNat) ∨
        (c = .move ∧ ∃ x : Pin, p = [toByte x.val] ∨ p = [0xFF]) ∨
        (c = .adopt ∧ ∃ g : Agent, p = [toByte g.val])) →
      s.carries a c q (wordBytes h.value ++ p) →
      (s.record? h = none → exec c.command s = s.refuses a c q .staleHandle) ∧
      (∀ r, s.record? h = some r → a ≠ 0 → r.owner ≠ a → c ≠ .readRecord →
        exec c.command s = s.refuses a c q .notOwner)) ∧
    (∀ p : List Byte,
      let word (i : Nat) : Nat := (p.getD i 0).toNat + 256 * (p.getD (i + 1) 0).toNat
      (p.length = 8 → s.carries a .link q p → p.getD 0 0 = 0 ∧ 512 ≤ word 1 ∨ 512 ≤ word 4 →
        exec .link s = s.refuses a .link q .badValue) ∧
      (p.length = 4 → s.carries a .listLinks q p → p.getD 0 0 = 0 ∧ 512 ≤ word 1 →
        exec .listLinks s = s.refuses a .listLinks q .badValue) ∧
      (p.length = 1 + 2 * (p.getD 0 0).toNat → s.carries a .startGroup q p →
        (∃ i < (p.getD 0 0).toNat, 512 ≤ word (1 + 2 * i)) →
        exec .startGroup s = s.refuses a .startGroup q .badValue)) ∧
    (∀ l : Link, s.carries a .link q ((match l.source with
          | .record h => (0 : Byte) :: wordBytes h.value
          | .pin p => (1 : Byte) :: wordBytes p.val) ++
        [toByte l.event.code] ++ wordBytes l.target.value ++ [toByte l.action.code, toByte l.enabled.toNat]) →
      (match l.source with
        | .record _ => l.event ∈ [.started, .period, .markA, .markB, .done]
        | .pin _ => l.event ∈ [.rise, .fall, .either]) →
      let current (h : Handle) : Prop := (s.record? h).isSome = true
      let other (h : Handle) : Prop := ∃ r, s.record? h = some r ∧ r.owner ≠ a
      (¬ current l.target ∨ (∃ h, l.source = .record h ∧ ¬ current h) →
        exec .link s = s.refuses a .link q .staleHandle) ∧
      (current l.target → (∀ h, l.source = .record h → current h) → a ≠ 0 →
        other l.target ∨ (∃ h, l.source = .record h ∧ other h) →
        exec .link s = s.refuses a .link q .notOwner)) ∧
    (∀ (h : Handle) (start : Fin 8), s.carries a .listLinks q ((0 : Byte) :: wordBytes h.value ++ [toByte start.val]) →
      s.record? h = none → exec .listLinks s = s.refuses a .listLinks q .staleHandle) ∧
    (∀ hs : List Handle, 1 ≤ hs.length → hs.length ≤ 8 →
      s.carries a .startGroup q (toByte hs.length :: hs.flatMap fun h => wordBytes h.value) →
      ((∃ h ∈ hs, s.record? h = none) → exec .startGroup s = s.refuses a .startGroup q .staleHandle) ∧
      ((∀ h ∈ hs, (s.record? h).isSome = true) → a ≠ 0 → (∃ h ∈ hs, ∃ r, s.record? h = some r ∧ r.owner ≠ a) →
        exec .startGroup s = s.refuses a .startGroup q .notOwner))

/-- R131, R166, R19, R30, R34, R119: the short reads answer with the data of R179 and change nothing but the posting;
FIND_BY_PIN refuses a pin above 23, and READ_TIMEBASE a base above 3, with BAD_VALUE. The margin of a PING is the time
left in whole lease units rounded down, where that is in R131's range of 0 to 254 (255 alone is not; log entry 9). Bits
7-5 of the first byte of a group are the model's choice (log entry 26). -/
def Obligations.ShortReadsAnswerAndChangeNothing : Prop :=
  ∀ (s : State) (a : Agent) (q : Byte),
    (s.carries a .ping q [] → s.sessions[a].lease = 0 ∨ s.sessions[a].timer / 65536 ≤ 254 →
      exec .ping s = s.answers a .ping q [1, s.sessions[a].lease, toByte s.sessions[a].attention.toNat,
        if s.sessions[a].lease = 0 then 0 else toByte (s.sessions[a].timer / 65536)]) ∧
    (s.carries a .readDevice q [] →
      exec .readDevice s = s.answers a .readDevice q [0x32, 0x24, 1, 32, 64, 24, 4, 4,
        match s.engine.cause with | .powerOn => 0 | .resetLine => 1 | .restart => 2]) ∧
    (∀ p : Pin, s.carries a .findByPin q [toByte p.val] →
      exec .findByPin s = s.answers a .findByPin q
        (match s.pins[p].claim with | some h => wordBytes (32 * h.gen.val + h.slot.val) | none => [0xFF, 0xFF])) ∧
    (∀ x : Byte, 23 < x.toNat → s.carries a .findByPin q [x] →
      exec .findByPin s = s.refuses a .findByPin q .badValue) ∧
    (∀ b : Base, s.carries a .readTimebase q [toByte b.val] →
      exec .readTimebase s = s.answers a .readTimebase q
        ((match s.bases[b].source with
          | .core => (0 : Byte) :: wordBytes (s.bases[b].divisor - 1) ++ [0xFF, 0]
          | .pin p d => (1 : Byte) :: wordBytes (s.bases[b].divisor - 1) ++
              [toByte p.val, match d with | .rising => 1 | .falling => 2]) ++
        [toByte s.bases[b].running.toNat, toByte s.bases[b].latch.toNat,
          toByte (s.countRecords fun r => r.base == b)])) ∧
    (∀ x : Byte, 3 < x.toNat → s.carries a .readTimebase q [x] →
      exec .readTimebase s = s.refuses a .readTimebase q .badValue) ∧
    (s.carries a .readInhibit q [] →
      let three (g : Group) : List Byte :=
        [toByte ((s.group g).enabled.toNat + (match (s.group g).policy with | .auto => 0 | .latched => 2) +
            (match (s.group g).state with | .clear => 0 | .active => 4 | .latched => 8) + 16 * (s.group g).line.toNat),
          toByte ((List.finRange 24).countP fun p =>
            decide (s.pins[p].config.role = .output ∧ s.pins[p].config.group = some g)),
          toByte (s.countRecords fun r => r.held != .clear &&
            (match r.pin with | some p => decide (s.pins[p].config.group = some g) | none => false))]
      exec .readInhibit s = s.answers a .readInhibit q (three .a ++ three .b))

/-- R18, R78, R109, R183: the reads of a record, of a list of links and of pins answer and change nothing but the
posting. The bytes of a record are laid out in `Obligations.ReadRecordBytes`. LIST_LINKS refuses a source or a start
position out of range, and READ_PINS a form, first pin or count out of range, with BAD_VALUE. MODEL'S READING
(DEDUCED, log entry 28): the grant set in bits 6 to 4 of a CONFIG entry, for agents 1, 2 and 3 in that order, has agent
1 at bit 6 and agent 3 at bit 4. MODEL'S CHOICE (log entry 26): bits that R183 does not assign are sent as 0. -/
def Obligations.TableReadsAnswerAndChangeNothing : Prop :=
  ∀ (s : State) (a : Agent) (q : Byte),
    (∀ (h : Handle) (r : Record), s.record? h = some r → s.carries a .readRecord q (wordBytes h.value) →
      exec .readRecord s = s.answers a .readRecord q (s.recordBytes h r)) ∧
    (∀ (src : LinkSource) (start : Fin 8),
      (match src with | .record h => (s.record? h).isSome = true | .pin _ => True) →
      s.carries a .listLinks q ((match src with
        | .record h => (0 : Byte) :: wordBytes h.value
        | .pin p => (1 : Byte) :: wordBytes p.val) ++ [toByte start.val]) →
      let l := s.linkList src
      exec .listLinks s = s.answers a .listLinks q
        ([toByte (l.length + if start.val + 4 < l.length then 128 else 0),
          toByte (min 4 (l.length - start.val))] ++
        ((l.drop start.val).take 4).flatMap fun i =>
          match s.links[i] with
          | some x => [toByte i.val] ++ wordBytes x.target.value ++
              [toByte (x.event.code + 8 * x.action.code + 128 * x.enabled.toNat)]
          | none => [])) ∧
    (∀ type low high start : Byte, s.carries a .listLinks q [type, low, high, start] →
      let source := low.toNat + 256 * high.toNat
      1 < type.toNat ∨ type = 0 ∧ 511 < source ∨ type = 1 ∧ 23 < source ∨ 7 < start.toNat →
        exec .listLinks s = s.refuses a .listLinks q .badValue) ∧
    (∀ (config : Bool) (first : Pin) (n : Nat), 1 ≤ n → n ≤ 8 → first.val + n ≤ 24 →
      s.carries a .readPins q [toByte config.toNat, toByte first.val, toByte n] →
      exec .readPins s = s.answers a .readPins q ([toByte config.toNat, toByte first.val, toByte n] ++
        ((List.finRange 24).filter fun p => decide (first.val ≤ p.val ∧ p.val < first.val + n)).flatMap fun p =>
          if config then
            [toByte (s.pins[p].config.role.code + 4 * s.pins[p].config.drive.code + 8 * s.pins[p].config.pull.code +
                32 * groupCode s.pins[p].config.group),
              toByte (s.pins[p].config.idle.code + 4 * s.pins[p].config.safe.code +
                64 * (s.pins[p].grants.getLsbD 1).toNat + 32 * (s.pins[p].grants.getLsbD 2).toNat +
                16 * (s.pins[p].grants.getLsbD 3).toNat)]
          else
            toByte (s.pins[p].config.role.code + 4 * groupCode s.pins[p].config.group +
                16 * (a == 0 || s.pins[p].grants.getLsbD a.val).toNat + 32 * s.pins[p].observed.toNat +
                64 * (s.shown p).code) ::
              (match s.pins[p].claim with | some h => wordBytes h.value | none => [0xFF, 0xFF]))) ∧
    (∀ form first count : Byte, s.carries a .readPins q [form, first, count] →
      1 < form.toNat ∨ 23 < first.toNat ∨ count = 0 ∨ 8 < count.toNat ∨ 24 < first.toNat + count.toNat →
        exec .readPins s = s.refuses a .readPins q .badValue)

/-- R18, R181: the 29 data bytes of READ_RECORD give back each field of the record, an absent field as 0. The
group-wait base without a group-wait, and bit 7 of byte 7, are 0 by the model's choice (log entry 26). -/
def Obligations.ReadRecordBytes : Prop :=
  ∀ (s : State) (h : Handle) (r : Record), r.outgoing.length ≤ 8 →
    let d := s.recordBytes h r
    d.length = 29 ∧ Handle.ofWord (wordAt d 0) = some h ∧
    (byteAt d 2).toNat % 4 = r.owner.val ∧ (byteAt d 2).getLsbD 2 = r.orphan ∧
    (byteAt d 2).getLsbD 3 = (r.held != .clear) ∧ (byteAt d 2).getLsbD 4 = r.invert ∧
    (byteAt d 2).getLsbD 5 = (r.kind == .pulseOnce && r.rearm) ∧
    (byteAt d 2).getLsbD 6 = (r.kind.hasLevel && r.level) ∧ (byteAt d 2).getLsbD 7 = r.output ∧
    (byteAt d 3).toNat % 16 = r.kind.code ∧ (byteAt d 3).toNat / 16 % 8 = r.state.code ∧
    (byteAt d 3).getLsbD 7 = (r.kind.hasMarkB && r.phase == .waitB) ∧
    (byteAt d 4).toNat % 4 = r.base.val ∧ (byteAt d 4).toNat / 4 % 4 = r.lapse.code ∧
    (byteAt d 4).toNat / 16 % 4 = (match r.pin with | some p => (s.shown p).code | none => 0) ∧
    (byteAt d 4).toNat / 64 = (match r.groupWait with | some b => b.val | none => 0) ∧
    byteAt d 5 = r.tag ∧ byteAt d 6 = (match r.pin with | some p => toByte p.val | none => 0xFF) ∧
    (byteAt d 7).toNat % 16 = r.outgoing.length ∧ (byteAt d 7).getLsbD 4 = r.staged.isSome ∧
    (byteAt d 7).getLsbD 5 = r.cue.isSome ∧ (byteAt d 7).getLsbD 6 = r.groupWait.isSome ∧
    (byteAt d 7).getLsbD 7 = false ∧
    wordAt d 8 = (if r.kind.timed then r.timing.period else 0) ∧
    wordAt d 10 = (if r.kind.timed then r.counter else 0) ∧
    wordAt d 12 = (if r.kind.timed then r.timing.markA else 0) ∧
    wordAt d 14 = (if r.kind.hasMarkB then r.timing.markB else 0) ∧
    (match r.staged with
      | some t => wordAt d 16 = t.period ∧ wordAt d 18 = t.markA ∧ wordAt d 20 = t.markB
      | none => wordAt d 16 = 0 ∧ wordAt d 18 = 0 ∧ wordAt d 20 = 0) ∧
    byteAt d 22 = (match r.cue with | some c => toByte (c.link.val + 64 * c.action.code) | none => 0) ∧
    noticesOfWord (wordAt d 23) = some r.enableSet ∧ noticesOfWord (wordAt d 25) = some r.pendingSet ∧
    noticesOfWord (wordAt d 27) = some r.againSet

/-! ## Sessions (chapter 7) and RESTART -/

/-- R130: OPEN is accepted in every session state; from LAPSED it clears the orphan mark of the agent's records. -/
def Obligations.OpenSessionOpens : Prop :=
  ∀ (s : State) (a : Agent) (q lease : Byte), s.carries a .openSession q [lease] →
    let x : Session := { s.sessions[a] with state := .opened, lease := lease }
    (s.sessions[a].state ≠ .lapsed → exec .openSession s =
      (s.setSession a x).answers a .openSession q
        [match s.sessions[a].state with | .closed => 0 | .opened => 1 | .lapsed => 2, 0]) ∧
    (s.sessions[a].state = .lapsed → exec .openSession s =
      ((s.mapRecords fun r => if r.owner = a then { r with orphan := false } else r).setSession a x).answers a
        .openSession q [2, toByte (s.countRecords fun r => r.owner == a && r.orphan)])

/-- R132, R162: CLOSE begins at slot 0. Each visit retires the slot's record if the agent owns it; the visit of slot 31
ends with the session CLOSED and the number of records retired posted. -/
def Obligations.CloseSessionRetiresAndCloses : Prop :=
  ∀ (s : State) (a : Agent) (q : Byte),
    (s.carries a .closeSession q [] → exec .closeSession s =
      .next (s.setOp (some { agent := a, sweep := false, work := .closing 0 0 }))) ∧
    (∀ (f : Frame) (i : SlotIx) (n : Nat), s.working = some (a, f, .closing i n) →
      ∀ (t : State) (m : Nat),
      ((∃ r, s.slots[i].record = some r ∧ r.owner = a) ∧ t = s.retireSlot i ∧ m = n + 1 ∨
        (∀ r, s.slots[i].record = some r → r.owner ≠ a) ∧ t = s ∧ m = n) →
      (∀ hi : i.val < 31, exec .closeVisit s =
        .next (t.setOp (some { agent := a, sweep := false, work := .closing ⟨i.val + 1, by omega⟩ m }))) ∧
      (i = 31 → exec .closeVisit s =
        .next ((t.setSession a { state := .closed, lease := 0, timer := 0, attention := false }).post a
          { seq := f.seq, code := f.code, status := .ok, data := [toByte m] })))

/-- R133, R162: FORCE_CLOSE ends the named agent's lease, discards its queued request or sweep, and begins its visits,
which are as CLOSE's for the named agent; after slot 31 the session is CLOSED and the response posted. Agent 0 and an
agent above 3 are refused with BAD_VALUE. Bits 7-2 of the second data byte are the model's choice (log entry 26). -/
def Obligations.ForceCloseDiscardsRetiresAndCloses : Prop :=
  ∀ (s : State) (g : Agent) (q : Byte),
    (∀ x : Byte, x = 0 ∨ 3 < x.toNat → s.carries 0 .forceClose q [x] →
      exec .forceClose s = s.refuses 0 .forceClose q .badValue) ∧
    (g ≠ 0 → s.carries 0 .forceClose q [toByte g.val] →
      let u : State := { s with sessions := put s.sessions g { s.sessions[g] with lease := 0, timer := 0 } }
      let begins (v : State) (request sweep : Bool) : Host.Outcome State Fault Refusal :=
        .next (v.setOp (some { agent := 0, sweep := false,
                               work := .forceClosing g s.sessions[g].state request sweep 0 0 }))
      (∀ d : Frame, s.ports[g].request = .queued d → exec .forceClose s =
        begins (u.setPort g { s.ports[g] with
          request := .empty
          response := some { seq := d.seq, code := d.code, status := .closed, data := [] } }) true false) ∧
      (s.ports[g].request = .sweepQueued →
        exec .forceClose s = begins (u.setPort g { s.ports[g] with request := .empty }) false true) ∧
      (s.ports[g].request = .empty → exec .forceClose s = begins u false false)) ∧
    (∀ (a : Agent) (f : Frame) (prev : SessionState) (request sweep : Bool) (i : SlotIx) (n : Nat),
      s.working = some (a, f, .forceClosing g prev request sweep i n) →
      ∀ (t : State) (m : Nat),
      ((∃ r, s.slots[i].record = some r ∧ r.owner = g) ∧ t = s.retireSlot i ∧ m = n + 1 ∨
        (∀ r, s.slots[i].record = some r → r.owner ≠ g) ∧ t = s ∧ m = n) →
      (∀ hi : i.val < 31, exec .forceCloseVisit s =
        .next (t.setOp (some { agent := a, sweep := false,
                               work := .forceClosing g prev request sweep ⟨i.val + 1, by omega⟩ m }))) ∧
      (i = 31 → exec .forceCloseVisit s =
        .next ((t.setSession g { state := .closed, lease := 0, timer := 0, attention := false }).post a
          { seq := f.seq, code := f.code, status := .ok,
            data := [match prev with | .closed => 0 | .opened => 1 | .lapsed => 2,
              toByte (request.toNat + 2 * sweep.toNat), toByte m] })))

/-- R164, R162: RESTART discards what agents 1 to 3 have queued and ends their leases; its visits retire every record;
after slot 31 the bases stop with clear latches, the sessions of agents 1 to 3 are CLOSED, the reset cause is RESTART
and the response is posted. The bits of its second data byte that name no agent 1 to 3 are the model's choice (log
entry 26). -/
def Obligations.RestartRetiresEverything : Prop :=
  ∀ s : State,
    (∀ q : Byte, s.carries 0 .restart q [] → ∃ (t : State) (discarded : BitVec 4),
      exec .restart s = .next t ∧
      t = { s with
        sessions := t.sessions, ports := t.ports
        engine := { s.engine with op := some { agent := 0, sweep := false, work := .restarting discarded 0 0 } } } ∧
      t.sessions[(0 : Agent)] = s.sessions[(0 : Agent)] ∧ t.ports[(0 : Agent)] = s.ports[(0 : Agent)] ∧
      discarded.getLsbD 0 = false ∧
      (∀ a : Agent, a ≠ 0 → t.sessions[a] = { s.sessions[a] with lease := 0, timer := 0 } ∧
        (∀ d, s.ports[a].request = .queued d → discarded.getLsbD a.val = true ∧
          t.ports[a] = { s.ports[a] with
            request := .empty
            response := some { seq := d.seq, code := d.code, status := .restarted, data := [] } }) ∧
        (s.ports[a].request = .sweepQueued → discarded.getLsbD a.val = false ∧
          t.ports[a] = { s.ports[a] with request := .empty }) ∧
        (s.ports[a].request = .empty → discarded.getLsbD a.val = false ∧ t.ports[a] = s.ports[a]))) ∧
    (∀ (a : Agent) (f : Frame) (discarded : BitVec 4) (i : SlotIx) (n : Nat),
      s.working = some (a, f, .restarting discarded i n) →
      ∀ (t : State) (m : Nat),
      (s.slots[i].record.isSome = true ∧ t = s.retireSlot i ∧ m = n + 1 ∨
        s.slots[i].record = none ∧ t = s ∧ m = n) →
      (∀ hi : i.val < 31, exec .restartVisit s =
        .next (t.setOp (some { agent := a, sweep := false,
                               work := .restarting discarded ⟨i.val + 1, by omega⟩ m }))) ∧
      (i = 31 → exec .restartVisit s =
        .next (({ t with
            bases := tab fun b => { t.bases[b] with running := false, latch := false, interval := none }
            sessions := tab fun b =>
              if b = 0 then t.sessions[b] else { state := .closed, lease := 0, timer := 0, attention := false }
            engine := { t.engine with cause := .restart } }).post a
          { seq := f.seq, code := f.code, status := .ok, data := [toByte m, discarded.setWidth 8] })))

/-- R134, R135: the expiry of a running lease timer lapses the session and queues a sweep, which the arbiter takes in
its turn; no record changes. -/
def Obligations.LeaseExpiryLapsesSession : Prop :=
  ∀ (s : State) (a : Agent), s.sessions[a].state = .opened → s.sessions[a].lease ≠ 0 → s.ports[a].request = .empty →
    exec (.leaseExpiry a) s =
      .next ({ s with
        sessions := put s.sessions a { s.sessions[a] with state := .lapsed, timer := 0 }
        ports := put s.ports a { s.ports[a] with request := .sweepQueued } }).arbitrate

/-- R136, R137, R162: a chosen sweep begins at slot 0. A visit leaves a slot the agent owns no record in as it is; it
marks a kept record orphan, stops and marks a parked one, and retires one whose action is RETIRE. After slot 31 the
request slot is EMPTY and nothing is posted. -/
def Obligations.LapseSweepAppliesLapseActions : Prop :=
  ∀ (s : State) (a : Agent),
    (s.engine.op = some { agent := a, sweep := true, work := .chosen } → s.ports[a].request = .sweepActive →
      exec .lapseSweep s = .next (s.setOp (some { agent := a, sweep := true, work := .sweeping 0 }))) ∧
    (∀ i : SlotIx, s.engine.op = some { agent := a, sweep := true, work := .sweeping i } →
      ∀ t : State,
      ((∀ r, s.slots[i].record = some r → r.owner ≠ a) ∧ t = s ∨
        ∃ r, s.slots[i].record = some r ∧ r.owner = a ∧
          (r.lapse = .keep ∧ t = s.setRecord i ({ r with orphan := true }.offer .lapsed) ∨
            r.lapse = .park ∧
              t = s.setRecord i (({ r.halt.1 with orphan := true }.offerAll r.halt.2).offer .lapsed) ∨
            r.lapse = .retire ∧ t = s.retireSlot i)) →
      (∀ hi : i.val < 31, exec .lapseSweepVisit s =
        .next (t.setOp (some { agent := a, sweep := true, work := .sweeping ⟨i.val + 1, by omega⟩ }))) ∧
      (i = 31 → exec .lapseSweepVisit s =
        .next ({ t with
          ports := put t.ports a { t.ports[a] with request := .empty }
          engine := { t.engine with op := none } }).arbitrate))

/-- R141: ADOPT gives the record to an OPEN agent that holds a grant for its pin, and clears its orphan mark; to an
agent that is not OPEN it is refused with BAD_STATE, and to one without the grant with PIN_DENIED. A handle above 511
and an agent above 3 are refused with BAD_VALUE. -/
def Obligations.AdoptChangesOwner : Prop :=
  ∀ (s : State) (q : Byte),
    (∀ low high agent : Byte, s.carries 0 .adopt q [low, high, agent] →
      511 < low.toNat + 256 * high.toNat ∨ 3 < agent.toNat → exec .adopt s = s.refuses 0 .adopt q .badValue) ∧
    ∀ (h : Handle) (r : Record) (g : Agent), s.record? h = some r →
      s.carries 0 .adopt q (wordBytes h.value ++ [toByte g.val]) →
      (s.sessions[g].state = .opened → (∀ p, r.pin = some p → s.granted g p = true) →
        exec .adopt s = (s.setRecord h.slot { r with owner := g, orphan := false }).answers 0 .adopt q []) ∧
      (s.sessions[g].state ≠ .opened → exec .adopt s = s.refuses 0 .adopt q .badState) ∧
      (s.sessions[g].state = .opened → (∃ p, r.pin = some p ∧ s.granted g p = false) →
        exec .adopt s = s.refuses 0 .adopt q .pinDenied)

/-! ## Records (chapter 1) -/

/-- R3, R5, R6, R12, R13: CREATE with parameters that are in range makes an IDLE record in the lowest EMPTY slot and
claims its pin; held is set on it if the pin's group is forcing. -/
def Obligations.CreateMakesIdleRecord : Prop :=
  ∀ (s : State) (a : Agent) (q : Byte) (i : SlotIx) (kind : Kind) (base : Base) (t : Timing)
    (level invert rearm : Bool) (pin : Option Pin) (tag : Byte) (lapse : LapseAction),
    s.carries a .create q ([toByte kind.code, toByte base.val] ++ wordBytes t.period.toNat ++
      wordBytes t.markA.toNat ++ wordBytes t.markB.toNat ++
      [toByte level.toNat, toByte invert.toNat, toByte rearm.toNat,
        match pin with | some p => toByte p.val | none => 0xFF, tag, toByte lapse.code]) →
    (kind ≠ .level → t.period ≠ 0) → (kind = .level → t.period = 0 ∧ t.markA = 0) →
    (kind ≠ .pulseOnce → kind ≠ .pulseTrain → t.markB = 0) →
    (kind ≠ .level → kind ≠ .toggleAt → level = false) → (kind ≠ .pulseOnce → rearm = false) →
    s.slots[i].record = none → (∀ j : SlotIx, j < i → s.slots[j].record.isSome = true) →
    (∀ p, pin = some p →
      s.pins[p].config.role = .output ∧ (a = 0 ∨ s.pins[p].grants.getLsbD a.val = true) ∧ s.pins[p].claim = none) →
    let r : Record :=
      { owner := a, orphan := false, tag := tag, kind := kind, state := .idle, base := base, timing := t,
        level := level, invert := invert, rearm := rearm, pin := pin, lapse := lapse, counter := 0, phase := .waitA,
        output := match kind with
          | .clearAt => true
          | .toggleAt => level
          | _ => false
        staged := none, cue := none,
        held := match pin with
          | some p => (match s.pins[p].config.group with
            | some g => if (s.group g).state = .clear then .clear else .held
            | none => .clear)
          | none => .clear
        groupWait := none, enableSet := 0x1F1, pendingSet := 0, againSet := 0, outgoing := [] }
    let h : Handle := { gen := s.slots[i].gen, slot := i }
    exec .create s =
      ((match pin with
        | some p => (s.setRecord i r).setPin p { s.pins[p] with claim := some h }
        | none => s.setRecord i r).answers a .create q (wordBytes (32 * h.gen.val + h.slot.val)))

/-- R3, R12, R13: a CREATE with a field that R12 refuses is refused with BAD_VALUE. One whose parameters are in range,
of any kind, with or without a pin, is refused with NO_SLOT when no slot is EMPTY, and then by the pin it names:
PIN_BUSY for a role other than OUTPUT, PIN_DENIED without a grant, PIN_BUSY for a pin that is claimed. -/
def Obligations.CreateRefusedBySlotOrPin : Prop :=
  ∀ (s : State) (a : Agent) (q : Byte),
    (∀ p : List Byte, p.length = 14 → s.carries a .create q p →
      let b (i : Nat) : Nat := (p.getD i 0).toNat
      6 < b 0 ∨ 3 < b 1 ∨ (b 0 ≠ 0 ∧ b 2 = 0 ∧ b 3 = 0) ∨
        (b 0 = 0 ∧ (b 2 ≠ 0 ∨ b 3 ≠ 0 ∨ b 4 ≠ 0 ∨ b 5 ≠ 0)) ∨
        (b 0 ≠ 4 ∧ b 0 ≠ 5 ∧ (b 6 ≠ 0 ∨ b 7 ≠ 0)) ∨
        1 < b 8 ∨ (b 0 ≠ 0 ∧ b 0 ≠ 3 ∧ b 8 ≠ 0) ∨ 1 < b 9 ∨ 1 < b 10 ∨ (b 0 ≠ 4 ∧ b 10 ≠ 0) ∨
        (23 < b 11 ∧ b 11 ≠ 255) ∨ 2 < b 13 →
      exec .create s = s.refuses a .create q .badValue) ∧
    (∀ (kind : Kind) (base : Base) (t : Timing) (level invert rearm : Bool) (pin : Option Pin) (tag : Byte)
        (lapse : LapseAction),
      s.carries a .create q ([toByte kind.code, toByte base.val] ++ wordBytes t.period.toNat ++
        wordBytes t.markA.toNat ++ wordBytes t.markB.toNat ++
        [toByte level.toNat, toByte invert.toNat, toByte rearm.toNat,
          match pin with | some p => toByte p.val | none => 0xFF, tag, toByte lapse.code]) →
      (kind ≠ .level → t.period ≠ 0) → (kind = .level → t.period = 0 ∧ t.markA = 0) →
      (kind ≠ .pulseOnce → kind ≠ .pulseTrain → t.markB = 0) →
      (kind ≠ .level → kind ≠ .toggleAt → level = false) → (kind ≠ .pulseOnce → rearm = false) →
      ((∀ i : SlotIx, s.slots[i].record.isSome = true) → exec .create s = s.refuses a .create q .noSlot) ∧
      (∀ (i : SlotIx) (p : Pin), s.slots[i].record = none → pin = some p →
        (s.pins[p].config.role ≠ .output → exec .create s = s.refuses a .create q .pinBusy) ∧
        (s.pins[p].config.role = .output → a ≠ 0 → s.pins[p].grants.getLsbD a.val = false →
          exec .create s = s.refuses a .create q .pinDenied) ∧
        (s.pins[p].config.role = .output → (a = 0 ∨ s.pins[p].grants.getLsbD a.val = true) →
          s.pins[p].claim.isSome = true → exec .create s = s.refuses a .create q .pinBusy)))

/-- R15, R16, R162: RETIRE empties the record's slot, adds one to its generation and gives up its claim; each visit
then frees its link entry if that names the handle, and after entry 63 OK is posted. -/
def Obligations.RetireEmptiesSlotAndFreesLinks : Prop :=
  ∀ (s : State) (a : Agent) (q : Byte),
    (∀ (h : Handle) (r : Record), s.record? h = some r → (a = 0 ∨ r.owner = a) →
      s.carries a .retire q (wordBytes h.value) →
      exec .retire s = .next { s with
        slots := put s.slots h.slot { gen := h.gen + 1, record := none }
        pins := (match r.pin with | some p => put s.pins p { s.pins[p] with claim := none } | none => s.pins)
        engine := { s.engine with op := some { agent := a, sweep := false, work := .retiring h 0 } } }) ∧
    (∀ (f : Frame) (h : Handle) (i : LinkIx) (t : State), s.working = some (a, f, .retiring h i) →
      ((∃ l, s.links[i] = some l ∧ (l.source = .record h ∨ l.target = h)) ∧ t = s.freeLink i ∨
        (∀ l, s.links[i] = some l → l.source ≠ .record h ∧ l.target ≠ h) ∧ t = s) →
      (∀ hi : i.val < 63, exec .linkFreeVisit s =
        .next (t.setOp (some { agent := a, sweep := false, work := .retiring h ⟨i.val + 1, by omega⟩ }))) ∧
      (i = 63 → exec .linkFreeVisit s =
        .next (t.post a { seq := f.seq, code := f.code, status := .ok, data := [] })))

/-- R15 to R17, R70: a retirement made by one visit of a long operation. Its slot is EMPTY with the next generation, its
pin is unclaimed, no link names its handle, and every other link is kept. Of every other record and every pin entry
nothing but the list of its links changes, and that list is the old one without the freed links whose source the record
or pin was, the others in their order. -/
def Obligations.RetirementLeavesNoTrace : Prop :=
  ∀ (s : State) (i : SlotIx) (r : Record), s.slots[i].record = some r →
    let t := s.retireSlot i
    let h : Handle := { gen := s.slots[i].gen, slot := i }
    let freed (src : LinkSource) (k : LinkIx) : Bool :=
      match s.links[k] with
      | some l => decide (l.source = src ∧ (l.source = .record h ∨ l.target = h))
      | none => false
    t.slots[i] = { gen := s.slots[i].gen + 1, record := none } ∧
    (∀ p : Pin, t.pins[p] = { s.pins[p] with
      links := s.pins[p].links.filter fun k => !freed (.pin p) k
      claim := if r.pin = some p then none else s.pins[p].claim }) ∧
    (∀ (k : LinkIx) (l : Link), t.links[k] = some l → l.source ≠ .record h ∧ l.target ≠ h) ∧
    (∀ (k : LinkIx) (l : Link), s.links[k] = some l → l.source ≠ .record h → l.target ≠ h → t.links[k] = some l) ∧
    (∀ j : SlotIx, j ≠ i → t.slots[j] = { s.slots[j] with
      record := s.slots[j].record.map fun x =>
        { x with outgoing := x.outgoing.filter fun k => !freed (.record { gen := s.slots[j].gen, slot := j }) k } }) ∧
    t = { s with slots := t.slots, links := t.links, pins := t.pins }

/-- R20, R162: FIND_BY_TAG begins at its start slot, which must not be above 31; a visit collects the handle of a slot
that carries the tag (of the requester's own records, or of any record for the supervisor), and a ninth one, or slot
31, ends the search. Bits 6-4 of the count byte are the model's choice (log entry 26). -/
def Obligations.FindByTagCollectsHandles : Prop :=
  ∀ (s : State) (a : Agent) (q : Byte),
    (∀ (tag : Byte) (i : SlotIx), s.carries a .findByTag q [tag, toByte i.val] →
      exec .findByTag s = .next (s.setOp (some { agent := a, sweep := false, work := .finding tag i [] }))) ∧
    (∀ tag start : Byte, 31 < start.toNat → s.carries a .findByTag q [tag, start] →
      exec .findByTag s = s.refuses a .findByTag q .badValue) ∧
    (∀ (f : Frame) (tag : Byte) (i : SlotIx) (found : List Handle), s.working = some (a, f, .finding tag i found) →
      let ends (l : List Handle) (more : Nat) : Host.Outcome State Fault Refusal :=
        .next (s.post a { seq := f.seq, code := f.code, status := .ok,
                          data := toByte (l.length + 128 * more) ::
                            l.flatMap fun h => wordBytes (32 * h.gen.val + h.slot.val) })
      ((∃ r, s.slots[i].record = some r ∧ r.tag = tag ∧ (a = 0 ∨ r.owner = a)) →
        (found.length = 8 → exec .findByTagVisit s = ends found 1) ∧
        (found.length < 8 →
          let l := found ++ [{ gen := s.slots[i].gen, slot := i }]
          (∀ hi : i.val < 31, exec .findByTagVisit s = .next (s.setOp (some
            { agent := a, sweep := false, work := .finding tag ⟨i.val + 1, by omega⟩ l }))) ∧
          (i = 31 → exec .findByTagVisit s = ends l 0))) ∧
      ((∀ r, s.slots[i].record = some r → ¬ (r.tag = tag ∧ (a = 0 ∨ r.owner = a))) →
        (∀ hi : i.val < 31, exec .findByTagVisit s = .next (s.setOp (some
          { agent := a, sweep := false, work := .finding tag ⟨i.val + 1, by omega⟩ found }))) ∧
        (i = 31 → exec .findByTagVisit s = ends found 0)))

/-- R22, R23: SET_TAG and SET_LAPSE replace their field of the record and change nothing else in it; a lapse action
above 2 is refused with BAD_VALUE. -/
def Obligations.TagAndLapseRequestsReplaceOneField : Prop :=
  ∀ (s : State) (a : Agent) (q : Byte) (h : Handle),
    (∀ x : Byte, 2 < x.toNat → s.carries a .setLapse q (wordBytes h.value ++ [x]) →
      exec .setLapse s = s.refuses a .setLapse q .badValue) ∧
    ∀ r : Record, s.record? h = some r → (a = 0 ∨ r.owner = a) →
      (∀ tag : Byte, s.carries a .setTag q (wordBytes h.value ++ [tag]) →
        exec .setTag s = (s.setRecord h.slot { r with tag := tag }).answers a .setTag q []) ∧
      (∀ l : LapseAction, s.carries a .setLapse q (wordBytes h.value ++ [toByte l.code]) →
        exec .setLapse s = (s.setRecord h.slot { r with lapse := l }).answers a .setLapse q [])

/-! ## Notices (chapter 8) -/

/-- R40, R142, R144: a notice offered to a record's sets: not recorded when not enabled, joined to the pending set at
its first occurrence and to the again set from its second. What occurs at a record is offered in the order raised, each
occurrence but STARTED being a notice; and STARTED, PERIOD, MARK_A, MARK_B and DONE, and no others, are its events. -/
def Obligations.NoticeIsOfferedToTheSets : Prop :=
  (∀ (r : Record) (n : Notice),
    (hasNotice r.enableSet n = false → r.offer n = r) ∧
    (hasNotice r.enableSet n = true → hasNotice r.pendingSet n = false →
      r.offer n = { r with pendingSet := (r.offer n).pendingSet } ∧
      ∀ m, hasNotice (r.offer n).pendingSet m = (hasNotice r.pendingSet m || m == n)) ∧
    (hasNotice r.enableSet n = true → hasNotice r.pendingSet n = true →
      r.offer n = { r with againSet := (r.offer n).againSet } ∧
      ∀ m, hasNotice (r.offer n).againSet m = (hasNotice r.againSet m || m == n))) ∧
  (let notices (o : Occurrence) : List Notice := match o with
      | .started => []
      | .committed => [.committed]
      | .held => [.held]
      | .released => [.released]
      | .period => [.period]
      | .markA => [.markA]
      | .markB => [.markB]
      | .done => [.done]
      | .lapsed => [.lapsed]
   let events (o : Occurrence) : List SourceEvent := match o with
      | .started => [.started]
      | .period => [.period]
      | .markA => [.markA]
      | .markB => [.markB]
      | .done => [.done]
      | .committed | .held | .released | .lapsed => []
   ∀ occ : List Occurrence, (∀ r : Record, r.offerAll occ = (occ.flatMap notices).foldl Record.offer r) ∧
     eventsOf occ = occ.flatMap events)

/-- R146, R147: SET_NOTICES replaces the enable set and removes from the other sets what it no longer enables;
SET_ATTENTION replaces the requester's attention enable and counts its records with notices pending. A set field that
names anything else, and an enable above 1, are refused with BAD_VALUE. -/
def Obligations.NoticeRequestsReplaceEnables : Prop :=
  ∀ (s : State) (a : Agent) (q : Byte),
    (∀ (h : Handle) (w : Word), 511 < w.toNat → s.carries a .setNotices q (wordBytes h.value ++ wordBytes w.toNat) →
      exec .setNotices s = s.refuses a .setNotices q .badValue) ∧
    (∀ (h : Handle) (r : Record) (n : NoticeSet), s.record? h = some r → (a = 0 ∨ r.owner = a) →
      s.carries a .setNotices q (wordBytes h.value ++ wordBytes n.toNat) →
      exec .setNotices s =
        (s.setRecord h.slot { r with
          enableSet := n, pendingSet := r.pendingSet &&& n, againSet := r.againSet &&& n }).answers a .setNotices q
          (wordBytes n.toNat ++ wordBytes (r.pendingSet &&& n).toNat)) ∧
    (∀ x : Byte, 1 < x.toNat → s.carries a .setAttention q [x] →
      exec .setAttention s = s.refuses a .setAttention q .badValue) ∧
    (∀ v : Bool, s.carries a .setAttention q [toByte v.toNat] →
      exec .setAttention s =
        (s.setSession a { s.sessions[a] with attention := v }).answers a .setAttention q
          [toByte v.toNat, toByte (s.countRecords fun r => r.owner == a && r.pendingSet != 0)])

/-- R148, R162, R182: COLLECT begins at its start slot, which must not be above 31; a visit takes and empties the sets
of a record of the requester with a notice pending, and a seventh such record, which is left as it is, or slot 31, ends
the scan. Bits 6-3 of byte 0 are the model's choice (log entry 26). -/
def Obligations.CollectTakesPendingNotices : Prop :=
  ∀ (s : State) (a : Agent) (q : Byte),
    (∀ i : SlotIx, s.carries a .collect q [toByte i.val] →
      exec .collect s = .next (s.setOp (some { agent := a, sweep := false, work := .collecting i [] }))) ∧
    (∀ start : Byte, 31 < start.toNat → s.carries a .collect q [start] →
      exec .collect s = s.refuses a .collect q .badValue) ∧
    (∀ (f : Frame) (i : SlotIx) (es : List Collected), s.working = some (a, f, .collecting i es) →
      let ends (t : State) (l : List Collected) (more : Nat) : Host.Outcome State Fault Refusal :=
        .next (t.post a { seq := f.seq, code := f.code, status := .ok,
                          data := toByte (l.length + 128 * more) :: l.flatMap fun e =>
                            wordBytes (32 * e.handle.gen.val + e.handle.slot.val +
                              512 * (e.pendingSet.getLsbD 8).toNat + 1024 * (e.againSet.getLsbD 8).toNat) ++
                            [e.pendingSet.setWidth 8, e.againSet.setWidth 8] })
      let goesOn (t : State) (l : List Collected) : Prop :=
        (∀ hi : i.val < 31, exec .collectVisit s = .next (t.setOp (some
          { agent := a, sweep := false, work := .collecting ⟨i.val + 1, by omega⟩ l }))) ∧
        (i = 31 → exec .collectVisit s = ends t l 0)
      (∀ r, s.slots[i].record = some r → r.owner = a → r.pendingSet ≠ 0 →
        (es.length = 6 → exec .collectVisit s = ends s es 1) ∧
        (es.length < 6 → goesOn (s.setRecord i { r with pendingSet := 0, againSet := 0 })
          (es ++ [{ handle := { gen := s.slots[i].gen, slot := i }, pendingSet := r.pendingSet,
                    againSet := r.againSet }]))) ∧
      ((∀ r, s.slots[i].record = some r → r.owner ≠ a ∨ r.pendingSet = 0) → goesOn s es))

/-- R150: ATTN is asserted when, and only when, an agent whose attention is enabled owns a record with a notice
pending. -/
def Obligations.AttnFollowsPendingNotices : Prop :=
  ∀ s : State, s.attn = true ↔
    ∃ (i : SlotIx) (r : Record), s.slots[i].record = some r ∧ s.sessions[r.owner].attention = true ∧
      ∃ n : Notice, hasNotice r.pendingSet n = true

/-! ## Running a record (chapters 2 and 3) -/

/-- R41, R42, R52 to R54: START starts a record that is not RUNNING and hands its events on; ARM sends an IDLE or DONE
record to ARMED; STOP stops a record in any state. A RUNNING record refuses START and ARM with RECORD_BUSY. -/
def Obligations.StartArmAndStopRequests : Prop :=
  ∀ (s : State) (a : Agent) (q : Byte) (h : Handle) (r : Record), s.record? h = some r → (a = 0 ∨ r.owner = a) →
    (s.carries a .start q (wordBytes h.value) →
      (r.state ≠ .running → exec .start s =
        ((s.setRecord h.slot (r.begin.1.offerAll r.begin.2)).walkEvents h (eventsOf r.begin.2)).answers a
          .start q []) ∧
      (r.state = .running → exec .start s = s.refuses a .start q .recordBusy)) ∧
    (s.carries a .arm q (wordBytes h.value) →
      (r.state = .idle ∨ r.state = .done → exec .arm s =
        (s.setRecord h.slot { r with
          state := .armed, counter := 0, phase := .waitA, output := r.restLevel }).answers a .arm q []) ∧
      (r.state = .armed → exec .arm s = (s.setRecord h.slot r).answers a .arm q []) ∧
      (r.state = .running → exec .arm s = s.refuses a .arm q .recordBusy)) ∧
    (s.carries a .stop q (wordBytes h.value) →
      exec .stop s = (s.setRecord h.slot (r.halt.1.offerAll r.halt.2)).answers a .stop q [])

/-- R5, R41, R42, R54, R63, R123: a record's own part in a start and in a stop. A start puts it at RUNNING, counter 0
and its kind's start level before the start compare, which a LEVEL record does not make. A stop commits a staged copy
with COMMITTED, then pays an owed release with RELEASED, and leaves it IDLE at counter 0, phase WAIT_A and rest level
with no group-wait and no pending cue; an IDLE record loses its group-wait and its pending cue alone. -/
def Obligations.StartAndStopOfARecord : Prop :=
  ∀ r : Record,
    let x : Record := { r with
      state := .running, counter := 0, phase := .waitA, groupWait := none
      output := match r.kind with
        | .level | .toggleAt => r.level
        | .clearAt => true
        | .pwm => r.timing.markA != 0
        | .setAt | .pulseOnce | .pulseTrain => false }
    r.begin = (x.compare.1, .started :: x.compare.2) ∧ (r.kind = .level → x.compare = (x, [])) ∧
    (r.state = .idle → r.halt = ({ r with groupWait := none, cue := none }, [])) ∧
    (r.state ≠ .idle → r.halt =
      ({ r with
          state := .idle, counter := 0, phase := .waitA, groupWait := none, cue := none, staged := none
          timing := r.staged.getD r.timing
          held := if r.held = .owed then .clear else r.held
          output := match r.kind with
            | .clearAt => true
            | .toggleAt => r.level
            | _ => false },
        (if r.staged.isSome then [.committed] else []) ++ (if r.held = .owed then [.released] else [])))

/-- R55, R57 to R60, R65: SET_LEVEL replaces the level field, and the output with it of a RUNNING LEVEL record and of an
IDLE or ARMED TOGGLE_AT record; other kinds, and a level above 1, are refused with BAD_VALUE. SET_TIMING stages the
values for a RUNNING record of a periodic kind, takes them at once with counter 0 for a timed record that is not
RUNNING, and is refused with RECORD_BUSY by a RUNNING one-shot record and with BAD_VALUE by a LEVEL record, for period 0
and for a mark B its kind does not have. CANCEL_STAGED removes a staged copy and says whether there was one. The bits of
the two data bytes that R179 does not assign are the model's choice (log entry 26). -/
def Obligations.LevelAndTimingRequests : Prop :=
  ∀ (s : State) (a : Agent) (q : Byte) (h : Handle),
    (∀ x : Byte, 1 < x.toNat → s.carries a .setLevel q (wordBytes h.value ++ [x]) →
      exec .setLevel s = s.refuses a .setLevel q .badValue) ∧
    ∀ r : Record, s.record? h = some r → (a = 0 ∨ r.owner = a) →
      (∀ v : Bool, s.carries a .setLevel q (wordBytes h.value ++ [toByte v.toNat]) →
        (r.kind = .level ∧ r.state = .running ∨ r.kind = .toggleAt ∧ (r.state = .idle ∨ r.state = .armed) →
          exec .setLevel s = (s.setRecord h.slot { r with level := v, output := v }).answers a .setLevel q []) ∧
        (r.kind = .level ∧ r.state ≠ .running ∨ r.kind = .toggleAt ∧ (r.state = .running ∨ r.state = .done) →
          exec .setLevel s = (s.setRecord h.slot { r with level := v }).answers a .setLevel q []) ∧
        (r.kind ≠ .level → r.kind ≠ .toggleAt → exec .setLevel s = s.refuses a .setLevel q .badValue)) ∧
      (∀ t : Timing, s.carries a .setTiming q
          (wordBytes h.value ++ wordBytes t.period.toNat ++ wordBytes t.markA.toNat ++ wordBytes t.markB.toNat) →
        let markBOk : Prop := r.kind = .pulseOnce ∨ r.kind = .pulseTrain ∨ t.markB = 0
        (t.period ≠ 0 → markBOk → r.state = .running → r.kind = .toggleAt ∨ r.kind = .pulseTrain ∨ r.kind = .pwm →
          exec .setTiming s = (s.setRecord h.slot { r with staged := some t }).answers a .setTiming q
            [if r.staged.isSome then 3 else 1]) ∧
        (t.period ≠ 0 → markBOk → r.state ≠ .running → r.kind ≠ .level →
          exec .setTiming s = (s.setRecord h.slot { r with timing := t, counter := 0 }).answers a .setTiming q [0]) ∧
        (t.period ≠ 0 → markBOk → r.state = .running → r.kind = .setAt ∨ r.kind = .clearAt ∨ r.kind = .pulseOnce →
          exec .setTiming s = s.refuses a .setTiming q .recordBusy) ∧
        (t.period = 0 ∨ r.kind = .level ∨ ¬ markBOk → exec .setTiming s = s.refuses a .setTiming q .badValue)) ∧
      (s.carries a .cancelStaged q (wordBytes h.value) →
        exec .cancelStaged s = (s.setRecord h.slot { r with staged := none }).answers a .cancelStaged q
          [if r.staged.isSome then 1 else 0])

/-- R86, R87, R162: START_GROUP of records that pass its checks begins its visits. A visit marks its record with
group-wait unless it is RUNNING; after the last the base's latch is set and the marked flags are posted (those above the
last handle's 0, the model's choice, log entry 26). A count of 0 or above 8 is refused with BAD_VALUE; and, of current
records that the requester may change, a handle named twice with BAD_VALUE, then two bases with BASE_MISMATCH, then a
RUNNING record with BAD_STATE. -/
def Obligations.StartGroupMarksAndSetsLatch : Prop :=
  ∀ (s : State) (a : Agent),
    (∀ (q n : Byte) (p : List Byte), s.carries a .startGroup q (n :: p) → p.length = 2 * n.toNat →
      n = 0 ∨ 8 < n.toNat → exec .startGroup s = s.refuses a .startGroup q .badValue) ∧
    (∀ (q : Byte) (hs : List Handle), 1 ≤ hs.length → hs.length ≤ 8 →
      (∀ h ∈ hs, ∃ r, s.record? h = some r ∧ (a = 0 ∨ r.owner = a)) →
      s.carries a .startGroup q (toByte hs.length :: hs.flatMap fun h => wordBytes h.value) →
      let oneBase : Prop := ∃ b : Base, ∀ h ∈ hs, ∀ r, s.record? h = some r → r.base = b
      let stopped : Prop := ∀ h ∈ hs, ∀ r, s.record? h = some r → r.state ≠ .running
      (¬ hs.Nodup → exec .startGroup s = s.refuses a .startGroup q .badValue) ∧
      (hs.Nodup → ¬ oneBase → exec .startGroup s = s.refuses a .startGroup q .baseMismatch) ∧
      (hs.Nodup → oneBase → ¬ stopped → exec .startGroup s = s.refuses a .startGroup q .badState) ∧
      (∀ b : Base, hs.Nodup → (∀ h ∈ hs, ∀ r, s.record? h = some r → r.base = b) → stopped →
        exec .startGroup s = .next (s.setOp (some { agent := a, sweep := false, work := .grouping b hs 0 0 })))) ∧
    (∀ (f : Frame) (b : Base) (h : Handle) (hs : List Handle) (n : Nat) (flags : Byte) (r : Record),
      s.working = some (a, f, .grouping b (h :: hs) n flags) → s.record? h = some r →
      ∀ (t : State) (flags' : Byte),
      (r.state ≠ .running ∧ t = s.setRecord h.slot { r with groupWait := some b } ∧ flags' = flags ||| (1#8 <<< n) ∨
        r.state = .running ∧ t = s ∧ flags' = flags) →
      (hs ≠ [] → exec .startGroupVisit s =
        .next (t.setOp (some { agent := a, sweep := false, work := .grouping b hs (n + 1) flags' }))) ∧
      (hs = [] → exec .startGroupVisit s =
        .next ((t.setBase b { t.bases[b] with latch := true }).post a
          { seq := f.seq, code := f.code, status := .ok, data := [flags'] })))

/-- R27, R35, R36, R82, R89: a tick of a RUNNING base. Every record on the base takes it, each from its own state
before the tick; the latch clears and a CORE base begins its next interval; and then the events raised are walked one
after another, each record's own in the order it raised them. MODEL'S CHOICE (log entry 27): the row TICK is one tick of
a PIN base as well, whatever the level of its count pin. -/
def Obligations.TickReachesEveryRecordOnce : Prop :=
  ∀ (s : State) (b : Base), s.bases[b].running = true → ∃ order : List (Handle × SourceEvent),
    (∀ (i : SlotIx) (r : Record), s.slots[i].record = some r → r.base = b →
      (order.filter fun x => x.1.slot == i) =
        (eventsOf (r.takeTick s.bases[b].latch).2).map fun ev => (s.handleAt i, ev)) ∧
    (∀ x ∈ order, ∃ r, s.record? x.1 = some r ∧ r.base = b) ∧
    exec (.tick b) s = .next (order.foldl (fun u x => u.walk (.record x.1) x.2)
      { s with
        slots := tab fun i => { s.slots[i] with
          record := s.slots[i].record.map fun r =>
            if r.base = b then
              (r.takeTick s.bases[b].latch).1.offerAll (r.takeTick s.bases[b].latch).2
            else r }
        bases := put s.bases b { s.bases[b] with
          latch := false
          interval := match s.bases[b].source with
            | .core => some { count := 0, inForce := s.bases[b].divisor }
            | .pin _ _ => none }
        draws := s.draws + 1 })

/-- R36 to R39, R61, R84, R123: the order in which a record takes a tick: a group start, or else its pending cue, or
else its advance. An advance that reaches the period makes the boundary: a staged copy is committed, an owed release
paid and PERIOD raised, in that order, and then the compare at counter 0 is made with the marks as they then stand. -/
def Obligations.RecordTakesTickInOrder : Prop :=
  ∀ (r : Record) (latch : Bool),
    let y : Record := { r with
      counter := 0, staged := none, timing := r.staged.getD r.timing
      held := if r.held = .owed then .clear else r.held }
    (latch = true ∧ r.groupWait = some r.base → r.takeTick latch = r.begin) ∧
    (¬ (latch = true ∧ r.groupWait = some r.base) →
      (r.cue = none → r.takeTick latch = r.advance) ∧
      (∀ c, r.cue = some c →
        let x : Record := { r with cue := none }
        (c.action = .start → (r.state = .armed ∨ r.state = .done) → r.takeTick latch = x.begin) ∧
        (c.action = .start → (r.state = .idle ∨ r.state = .running) → r.takeTick latch = x.advance) ∧
        (c.action = .stop → (r.state = .armed ∨ r.state = .running) → r.takeTick latch = x.halt) ∧
        (c.action = .stop → (r.state = .idle ∨ r.state = .done) → r.takeTick latch = x.advance) ∧
        (c.action = .align → r.state = .running → r.kind ≠ .level → r.takeTick latch = x.cross) ∧
        (c.action = .align → (r.state ≠ .running ∨ r.kind = .level) → r.takeTick latch = x.advance))) ∧
    ((r.state ≠ .running ∨ r.kind = .level) → r.advance = (r, [])) ∧
    (r.state = .running → r.kind ≠ .level →
      (r.counter.toNat + 1 < r.timing.period.toNat →
        r.advance = ({ r with counter := r.counter + 1 } : Record).compare) ∧
      (r.timing.period.toNat ≤ r.counter.toNat + 1 → r.advance = r.cross)) ∧
    r.cross = (y.compare.1,
      (if r.staged.isSome then [.committed] else []) ++ (if r.held = .owed then [.released] else []) ++ [.period] ++
        y.compare.2)

/-- R43 to R50: a RUNNING record's compare. A mark is matched when the counter is at it and it is below the period. At
the match SET_AT and CLEAR_AT change their output and are DONE; TOGGLE_AT inverts its output; PULSE_ONCE and PULSE_TRAIN
rise at mark A in phase WAIT_A and fall at mark B in phase WAIT_B, where a PULSE_ONCE is DONE, or ARMED at counter 0 if
it rearms; and PWM is set by mark A at counter 0 and falls at mark A after it. Otherwise, and for LEVEL, nothing
happens. So a compare raises at most one mark, and DONE only as the record leaves RUNNING. -/
def Obligations.CompareRaisesAtMostOneMark : Prop :=
  ∀ r : Record, r.state = .running →
    (let at_ (m : Word) : Prop := r.counter = m ∧ m < r.timing.period
     let atA : Prop := at_ r.timing.markA
     let atB : Prop := at_ r.timing.markB
     (r.kind = .level → r.compare = (r, [])) ∧
     (r.kind = .setAt → (atA → r.compare = ({ r with output := true, state := .done }, [.markA, .done])) ∧
       (¬ atA → r.compare = (r, []))) ∧
     (r.kind = .clearAt → (atA → r.compare = ({ r with output := false, state := .done }, [.markA, .done])) ∧
       (¬ atA → r.compare = (r, []))) ∧
     (r.kind = .toggleAt → (atA → r.compare = ({ r with output := !r.output }, [.markA])) ∧
       (¬ atA → r.compare = (r, []))) ∧
     (r.kind = .pulseOnce ∨ r.kind = .pulseTrain →
       (r.phase = .waitA → atA → r.compare = ({ r with output := true, phase := .waitB }, [.markA])) ∧
       (r.phase = .waitA → ¬ atA → r.compare = (r, [])) ∧ (r.phase = .waitB → ¬ atB → r.compare = (r, []))) ∧
     (r.kind = .pulseOnce → r.phase = .waitB → atB →
       (r.rearm = false →
         r.compare = ({ r with output := false, phase := .waitA, state := .done }, [.markB, .done])) ∧
       (r.rearm = true → r.compare =
         ({ r with output := false, phase := .waitA, state := .armed, counter := 0 }, [.markB, .done]))) ∧
     (r.kind = .pulseTrain → r.phase = .waitB → atB →
       r.compare = ({ r with output := false, phase := .waitA }, [.markB])) ∧
     (r.kind = .pwm →
       (r.counter = 0 → r.compare = ({ r with output := r.timing.markA != 0 }, [])) ∧
       (r.counter ≠ 0 → atA → r.compare = ({ r with output := false }, [.markA])) ∧
       (r.counter ≠ 0 → ¬ atA → r.compare = (r, [])))) ∧
    (r.compare.2 = [] ∨ r.compare.2 = [.markA] ∨ r.compare.2 = [.markB] ∨ r.compare.2 = [.markA, .done] ∨
      r.compare.2 = [.markB, .done]) ∧
    (Occurrence.done ∈ r.compare.2 ↔ r.compare.1.state ≠ .running) ∧
    (Occurrence.markA ∈ r.compare.2 → r.counter = r.timing.markA ∧ r.timing.markA < r.timing.period) ∧
    (Occurrence.markB ∈ r.compare.2 →
      r.phase = .waitB ∧ r.counter = r.timing.markB ∧ r.timing.markB < r.timing.period) ∧
    r.compare.1 = { r with
      output := r.compare.1.output, phase := r.compare.1.phase, state := r.compare.1.state
      counter := if r.compare.1.state = .armed then 0 else r.counter }

/-- R44, R45, R46 and R47's first row: a one-shot record over its run, `n` ticks after its start. SET_AT and CLEAR_AT
with mark A below the period change their output at the tick at counter A and are DONE from then on; PULSE_ONCE without
rearm, with mark A < mark B < period, is high from the tick at counter A to the tick at counter B, and is DONE from
then on. The counter of a DONE record stays. -/
def Obligations.OneShotOutputsOverARun : Prop :=
  ∀ (r : Record) (n : Nat), r.staged = none → r.cue = none →
    let x := (fun y : Record => (y.takeTick false).1)^[n] r.begin.1
    let a := r.timing.markA.toNat
    let b := r.timing.markB.toNat
    (r.kind = .setAt → r.timing.markA < r.timing.period →
      x.output = decide (a ≤ n) ∧ x.state = (if n < a then .running else .done) ∧ x.counter.toNat = min n a) ∧
    (r.kind = .clearAt → r.timing.markA < r.timing.period →
      x.output = decide (n < a) ∧ x.state = (if n < a then .running else .done) ∧ x.counter.toNat = min n a) ∧
    (r.kind = .pulseOnce → r.rearm = false → r.timing.markA < r.timing.markB → r.timing.markB < r.timing.period →
      x.output = decide (a ≤ n ∧ n < b) ∧ x.state = (if n < b then .running else .done) ∧ x.counter.toNat = min n b)

/-- R45, R48, R49: a periodic record over its run, `n` ticks after its start: it is RUNNING at counter `n` modulo its
period. A PWM output is 1 exactly while the counter is below mark A (mark A 0: 0 throughout; at or above the period: 1
throughout); a PULSE_TRAIN with mark A < mark B < period is high from counter A to counter B of every period; and a
TOGGLE_AT output is its level, toggled once at each tick at counter A (never, if mark A is not below the period). -/
def Obligations.PeriodicOutputsOverARun : Prop :=
  ∀ (r : Record) (n : Nat), r.staged = none → r.cue = none → r.timing.period ≠ 0 → r.kind.periodic = true →
    let x := (fun y : Record => (y.takeTick false).1)^[n] r.begin.1
    let period := r.timing.period.toNat
    let a := r.timing.markA.toNat
    let b := r.timing.markB.toNat
    x.state = .running ∧ x.timing = r.timing ∧ x.counter.toNat = n % period ∧
    (r.kind = .pwm → x.output = decide (n % period < a)) ∧
    (r.kind = .pulseTrain → a < b → b < period → x.output = decide (a ≤ n % period ∧ n % period < b)) ∧
    (r.kind = .toggleAt → a < period → x.output = (r.level ^^ decide ((n + period - a) / period % 2 = 1))) ∧
    (r.kind = .toggleAt → period ≤ a → x.output = r.level)

/-! ## Links and cues (chapter 4) -/

/-- R72 to R74: LINK makes the link in the lowest free entry at the end of its source's list. A field that R72 refuses
gives BAD_VALUE; then, of current records that the requester may change, a pin source that is not CUE_INPUT gives
PIN_BUSY and one without a grant PIN_DENIED; and then an equal link, a full pool and a full list refuse it, in that
order. -/
def Obligations.LinkRequestJoinsList : Prop :=
  ∀ (s : State) (a : Agent) (q : Byte),
    (∀ p : List Byte, p.length = 8 → s.carries a .link q p →
      let b (i : Nat) : Nat := (p.getD i 0).toNat
      1 < b 0 ∨ (b 0 = 0 ∧ (511 < b 1 + 256 * b 2 ∨ 4 < b 3)) ∨ (b 0 = 1 ∧ (23 < b 1 + 256 * b 2 ∨ b 3 < 5 ∨ 7 < b 3)) ∨
        511 < b 4 + 256 * b 5 ∨ 2 < b 6 ∨ 1 < b 7 →
      exec .link s = s.refuses a .link q .badValue) ∧
    (∀ (l : Link) (target : Record),
      s.carries a .link q ((match l.source with
          | .record h => (0 : Byte) :: wordBytes h.value
          | .pin p => (1 : Byte) :: wordBytes p.val) ++
        [toByte l.event.code] ++ wordBytes l.target.value ++ [toByte l.action.code, toByte l.enabled.toNat]) →
      s.record? l.target = some target → (a = 0 ∨ target.owner = a) →
      (match l.source with
        | .record h => l.event ∈ [.started, .period, .markA, .markB, .done] ∧
            ∃ r, s.record? h = some r ∧ (a = 0 ∨ r.owner = a)
        | .pin _ => l.event ∈ [.rise, .fall, .either]) →
      (∀ p, l.source = .pin p →
        (s.pins[p].config.role ≠ .cueInput → exec .link s = s.refuses a .link q .pinBusy) ∧
        (s.pins[p].config.role = .cueInput → s.granted a p = false → exec .link s = s.refuses a .link q .pinDenied)) ∧
      ((∀ p, l.source = .pin p → s.pins[p].config.role = .cueInput ∧ s.granted a p = true) →
        let twin : Prop := ∃ (k : LinkIx) (m : Link), s.links[k] = some m ∧ m.source = l.source ∧ m.event = l.event ∧
          m.target = l.target ∧ m.action = l.action
        let n := (s.linkList l.source).length
        (twin → exec .link s = s.refuses a .link q .linkDuplicate) ∧
        (¬ twin → (∀ k : LinkIx, s.links[k].isSome = true) → exec .link s = s.refuses a .link q .linkFull) ∧
        (¬ twin → ∀ i : LinkIx, s.links[i] = none → (∀ j : LinkIx, j < i → s.links[j].isSome = true) →
          (8 ≤ n → exec .link s = s.refuses a .link q .linkLimit) ∧
          (n < 8 → exec .link s =
            ((s.setLinkList l.source (s.linkList l.source ++ [i])).setLink i (some l)).answers a .link q
              [toByte i.val, toByte n]))))

/-- R70, R76, R77: UNLINK takes the link from its source's list and frees its entry; SET_LINK replaces its enabled
field. An index above 63 or an enabled value above 1 is refused with BAD_VALUE, a free entry with BAD_STATE, and an
agent other than the supervisor that does not own the target with NOT_OWNER. -/
def Obligations.UnlinkAndSetLinkRequests : Prop :=
  ∀ (s : State) (a : Agent) (q : Byte) (i : LinkIx) (v : Bool),
    (∀ x y : Byte, (63 < x.toNat → s.carries a .unlink q [x] → exec .unlink s = s.refuses a .unlink q .badValue) ∧
      (63 < x.toNat ∨ 1 < y.toNat → s.carries a .setLink q [x, y] →
        exec .setLink s = s.refuses a .setLink q .badValue)) ∧
    (s.carries a .unlink q [toByte i.val] →
      (s.links[i] = none → exec .unlink s = s.refuses a .unlink q .badState) ∧
      (∀ l, s.links[i] = some l → a ≠ 0 → (∀ r, s.record? l.target = some r → r.owner ≠ a) →
        exec .unlink s = s.refuses a .unlink q .notOwner) ∧
      (∀ l, s.links[i] = some l → (a = 0 ∨ ∃ r, s.record? l.target = some r ∧ r.owner = a) →
        exec .unlink s =
          ((s.setLinkList l.source ((s.linkList l.source).filter (· != i))).setLink i none).answers a .unlink q [])) ∧
    (s.carries a .setLink q [toByte i.val, toByte v.toNat] →
      (s.links[i] = none → exec .setLink s = s.refuses a .setLink q .badState) ∧
      (∀ l, s.links[i] = some l → a ≠ 0 → (∀ r, s.record? l.target = some r → r.owner ≠ a) →
        exec .setLink s = s.refuses a .setLink q .notOwner) ∧
      (∀ l, s.links[i] = some l → (a = 0 ∨ ∃ r, s.record? l.target = some r ∧ r.owner = a) →
        exec .setLink s = (s.setLink i (some { l with enabled := v })).answers a .setLink q []))

/-- R79 to R81, R83: a walk of a source's list for an event: each enabled link of the list whose event matches delivers
its cue to its target if the target is current, in list order; a cue over a pending one raises CUE_LOST; and nothing
else of the part changes. -/
def Obligations.WalkDeliversInListOrder : Prop :=
  ∀ (s : State) (src : LinkSource) (ev : SourceEvent),
    let t := s.walk src ev
    t = { s with slots := t.slots } ∧
    (∀ i : SlotIx, t.slots[i].gen = s.slots[i].gen ∧
      t.slots[i].record = s.slots[i].record.map fun r =>
        (s.linkList src).foldl (fun (r : Record) (k : LinkIx) =>
          match s.links[k] with
          | some l =>
            if l.enabled = true ∧ l.target = s.handleAt i ∧
                (l.event = ev ∨ l.event = .either ∧ (ev = .rise ∨ ev = .fall)) then
              if r.cue.isSome then ({ r with cue := some { action := l.action, link := k } } : Record).offer .cueLost
              else { r with cue := some { action := l.action, link := k } }
            else r
          | none => r) r)

/-! ## Pins (chapter 5) -/

/-- R103, R105 to R107: MOVE. To the pin the record has, nothing changes; to none, or to a pin that meets the claim
conditions for the record's owner, the claims change and the held mark is re-evaluated; and a condition that fails
refuses it. A pin above 23 other than 0xFF is refused with BAD_VALUE. -/
def Obligations.MoveChangesClaimAndHeldMark : Prop :=
  ∀ (s : State) (a : Agent) (q : Byte) (h : Handle),
    (∀ x : Byte, 23 < x.toNat → x ≠ 0xFF → s.carries a .move q (wordBytes h.value ++ [x]) →
      exec .move s = s.refuses a .move q .badValue) ∧
    ∀ (r : Record) (pin : Option Pin), s.record? h = some r → (a = 0 ∨ r.owner = a) →
      s.carries a .move q (wordBytes h.value ++ [match pin with | some p => toByte p.val | none => 0xFF]) →
      (pin = r.pin → exec .move s = s.answers a .move q []) ∧
      (∀ p, pin = some p → pin ≠ r.pin →
        (s.pins[p].config.role ≠ .output → exec .move s = s.refuses a .move q .pinBusy) ∧
        (s.pins[p].config.role = .output → s.granted r.owner p = false →
          exec .move s = s.refuses a .move q .pinDenied) ∧
        (s.pins[p].config.role = .output → s.granted r.owner p = true → s.pins[p].claim.isSome = true →
          exec .move s = s.refuses a .move q .pinBusy)) ∧
      (pin ≠ r.pin →
        (∀ p, pin = some p →
          s.pins[p].config.role = .output ∧ s.granted r.owner p = true ∧ s.pins[p].claim = none) →
        let before : Bool := match r.pin with | some p => s.pinForced p | none => false
        let after : Bool := match pin with | some p => s.pinForced p | none => false
        let x : Record := { r with pin := pin }
        let x' : Record :=
          if before = false ∧ after = true then
            (if r.held = .clear then ({ x with held := .held } : Record).offer .held else { x with held := .held })
          else if before = true ∧ after = false ∧ r.held = .held then
            (if r.state = .running ∧ r.kind.periodic = true then { x with held := .owed }
              else ({ x with held := .clear } : Record).offer .released)
          else x
        exec .move s =
          ({ s with
              slots := put s.slots h.slot { gen := s.slots[h.slot].gen, record := some x' }
              pins := tab fun p => { s.pins[p] with
                claim := if pin = some p then some h else if r.pin = some p then none else s.pins[p].claim }
            }).answers a .move q [])

/-- R96 to R99: CONFIG_PIN replaces the pin's configuration, and re-evaluates the held mark of a record that claims it;
a change of role is refused with PIN_BUSY while the pin is claimed, is a link source, or is counted; and a pin above 23
or a field that is none of its listed values with BAD_VALUE. -/
def Obligations.ConfigPinReplacesConfiguration : Prop :=
  ∀ (s : State) (q : Byte),
    (∀ pin role drive pull idle safe group : Byte,
      s.carries 0 .configPin q [pin, role, drive, pull, idle, safe, group] →
      23 < pin.toNat ∨ 3 < role.toNat ∨ 1 < drive.toNat ∨ 2 < pull.toNat ∨ 2 < idle.toNat ∨ 2 < safe.toNat ∨
        2 < group.toNat →
      exec .configPin s = s.refuses 0 .configPin q .badValue) ∧
    ∀ (p : Pin) (c : PinConfig),
      s.carries 0 .configPin q [toByte p.val, toByte c.role.code, toByte c.drive.code, toByte c.pull.code,
        toByte c.idle.code, toByte c.safe.code, toByte (groupCode c.group)] →
      let busy : Prop := match s.pins[p].config.role with
        | .off => False
        | .output => s.pins[p].claim ≠ none
        | .cueInput => s.pins[p].links ≠ []
        | .countInput => ∃ (b : Base) (d : EdgeDir), s.bases[b].source = .pin p d
      let t := s.setPin p { s.pins[p] with config := c }
      (c.role ≠ s.pins[p].config.role → busy → exec .configPin s = s.refuses 0 .configPin q .pinBusy) ∧
      ((c.role = s.pins[p].config.role ∨ ¬ busy) →
        (s.pins[p].claim.bind s.record? = none → exec .configPin s = t.answers 0 .configPin q []) ∧
        (∀ (h : Handle) (r : Record), s.pins[p].claim = some h → s.record? h = some r →
          let x := r.reevaluate (s.pinForced p) (t.pinForced p)
          exec .configPin s = (t.setRecord h.slot (x.1.offerAll x.2)).answers 0 .configPin q []))

/-- R101, R178: GRANT_PINS changes the agent's grant for each named pin at once; it changes none when the agent owns the
record that claims a pin whose grant it would withdraw. An agent of 0 or above 3, and an entry with bits 6-5 not zero,
a pin above 23 or a pin that another entry names, are refused with BAD_VALUE. -/
def Obligations.GrantPinsIsAllOrNone : Prop :=
  ∀ (s : State) (q : Byte),
    (∀ (agent : Byte) (es : List Byte), s.carries 0 .grantPins q (agent :: es) →
      agent = 0 ∨ 3 < agent.toNat ∨ (∃ e ∈ es, e.toNat / 32 % 4 ≠ 0 ∨ 23 < e.toNat % 32) ∨
        ¬ (es.map fun e => e.toNat % 32).Nodup →
      exec .grantPins s = s.refuses 0 .grantPins q .badValue) ∧
    ∀ (g : Agent) (es : List (Pin × Bool)), g ≠ 0 → es.length ≤ 24 → (es.map Prod.fst).Nodup →
      s.carries 0 .grantPins q (toByte g.val :: es.map fun e => toByte (e.1.val + 128 * e.2.toNat)) →
      let kept : Prop := ∃ e ∈ es, e.2 = false ∧ ∃ (h : Handle) (r : Record),
        s.pins[e.1].claim = some h ∧ s.record? h = some r ∧ r.owner = g
      (kept → exec .grantPins s = s.refuses 0 .grantPins q .pinBusy) ∧
      (¬ kept → ∃ (t : State) (data : List Byte), exec .grantPins s = t.answers 0 .grantPins q data ∧
        t = { s with pins := t.pins } ∧
        (∀ p : Pin, t.pins[p] = { s.pins[p] with grants := t.pins[p].grants } ∧
          (∀ k : Nat, k ≠ g.val → t.pins[p].grants.getLsbD k = s.pins[p].grants.getLsbD k) ∧
          (∀ v, (p, v) ∈ es → t.pins[p].grants.getLsbD g.val = v) ∧
          (p ∉ es.map Prod.fst → t.pins[p].grants = s.pins[p].grants)) ∧
        data.length = 3 ∧
        ∀ p : Pin, (byteAt data (p.val / 8)).getLsbD (p.val % 8) = t.pins[p].grants.getLsbD g.val)

/-- R110, R111: an edge of a pin whose filtered level differs: the filtered level changes; an OFF or OUTPUT pin hands
nothing on; a CUE_INPUT pin's list is walked; and a COUNT_INPUT pin ticks each RUNNING base that counts the edge, one
after another. MODEL'S CHOICE (log entry 27): these ticks are made within the row EDGE, with no row TICK for them. -/
def Obligations.EdgeIsHandedOnByRole : Prop :=
  ∀ (s : State) (p : Pin) (d : EdgeDir), s.resetn = .high → s.pins[p].filtered ≠ edgeLevel d →
    let t := s.setPin p { s.pins[p] with filtered := edgeLevel d, narrow := s.pins[p].observed != edgeLevel d }
    (s.pins[p].config.role = .off ∨ s.pins[p].config.role = .output → exec (.edge p d) s = .next t) ∧
    (s.pins[p].config.role = .cueInput → exec (.edge p d) s =
      .next (t.walk (.pin p) (match d with | .rising => .rise | .falling => .fall))) ∧
    (s.pins[p].config.role = .countInput → ∃ order : List Base, order.Nodup ∧
      (∀ b : Base, b ∈ order ↔ s.bases[b].running = true ∧ s.bases[b].source = .pin p d) ∧
      exec (.edge p d) s = .next (order.foldl State.tickBase { t with draws := t.draws + 1 }))

/-- R91, R93, R94, R109, R110: a pin's resolved value and shown level, and the observed level after a change at the
board; the filtered level is left to the filter. MODEL'S CHOICE (log entry 18): the operand is what the board puts on
the pin, a level or nothing, and a level that the board puts there is observed whatever the part drives. -/
def Obligations.PinShowsResolvedLevel : Prop :=
  ∀ (s : State) (p : Pin),
    let e := s.pins[p]
    let forced : Prop := ∃ g, e.config.group = some g ∧ (s.group g).state ≠ .clear
    let shows (v : Option Bool) : Prop := s.shown p =
      match v with
      | some false => .drives0
      | some true => (match e.config.drive with | .pushPull => .drives1 | .openDrain => .released)
      | none => .released
    let level (x : PinLevel) : Option Bool := match x with | .low => some false | .high => some true | .float => none
    (e.config.role ≠ .output → shows none) ∧
    (e.config.role = .output → forced → shows (level e.config.safe)) ∧
    (e.config.role = .output → ¬ forced → e.claim = none → shows (level e.config.idle)) ∧
    (∀ h r, e.config.role = .output → ¬ forced → e.claim = some h → s.record? h = some r →
      (r.held ≠ .clear → shows (level e.config.safe)) ∧ (r.held = .clear → shows (some (r.output ^^ r.invert)))) ∧
    (∀ board : Option Bool, ∃ v, exec (.observedLevelChange p board) s =
        .next { s with pins := put s.pins p { e with board := board, observed := v }, draws := s.draws + 1 } ∧
      (∀ w, board = some w → v = w) ∧
      (board = none →
        (s.shown p = .drives0 → v = false) ∧ (s.shown p = .drives1 → v = true) ∧
        (s.shown p = .released → e.config.pull = .up → v = true) ∧
        (s.shown p = .released → e.config.pull = .down → v = false)))

/-! ## Time bases (chapter 2) -/

/-- R30 to R33: SET_TIMEBASE gives a STOPPED base its source and divisor, and is refused with BAD_STATE by a RUNNING
base and for a pin that is not COUNT_INPUT. RUN_TIMEBASE sets a STOPPED base RUNNING, a CORE base with a fresh interval,
and leaves a RUNNING base as it is. HALT_TIMEBASE stops a base and discards its interval. SET_DIVISOR replaces the
divisor of a CORE base alone, and a PIN base refuses it with BAD_STATE. A base above 3, and a source, pin, edge or
divisor that R30 refuses, give BAD_VALUE. -/
def Obligations.TimeBaseRequests : Prop :=
  ∀ (s : State) (q : Byte),
    (∀ base source low high pin edge : Byte, s.carries 0 .setTimebase q [base, source, low, high, pin, edge] →
      3 < base.toNat ∨ 1 < source.toNat ∨ (source = 0 ∧ (pin ≠ 0xFF ∨ edge ≠ 0)) ∨
        (source = 1 ∧ (23 < pin.toNat ∨ (edge ≠ 1 ∧ edge ≠ 2) ∨ low ≠ 0 ∨ high ≠ 0)) →
      exec .setTimebase s = s.refuses 0 .setTimebase q .badValue) ∧
    (∀ base low high : Byte, 3 < base.toNat →
      (s.carries 0 .runTimebase q [base] → exec .runTimebase s = s.refuses 0 .runTimebase q .badValue) ∧
      (s.carries 0 .haltTimebase q [base] → exec .haltTimebase s = s.refuses 0 .haltTimebase q .badValue) ∧
      (s.carries 0 .setDivisor q [base, low, high] →
        exec .setDivisor s = s.refuses 0 .setDivisor q .badValue)) ∧
    ∀ (b : Base) (d : Nat), 1 ≤ d → d ≤ 65536 →
      (∀ src : Source, s.carries 0 .setTimebase q (match src with
          | .core => [toByte b.val, 0] ++ wordBytes (d - 1) ++ [0xFF, 0]
          | .pin p e => [toByte b.val, 1, 0, 0, toByte p.val, match e with | .rising => 1 | .falling => 2]) →
        (s.bases[b].running = true → exec .setTimebase s = s.refuses 0 .setTimebase q .badState) ∧
        (s.bases[b].running = false → (∃ p e, src = .pin p e ∧ s.pins[p].config.role ≠ .countInput) →
          exec .setTimebase s = s.refuses 0 .setTimebase q .badState) ∧
        (s.bases[b].running = false → (∀ p e, src = .pin p e → s.pins[p].config.role = .countInput) →
          exec .setTimebase s = (s.setBase b { s.bases[b] with
            source := src, divisor := if src = .core then d else 1 }).answers 0 .setTimebase q [])) ∧
      (s.carries 0 .runTimebase q [toByte b.val] →
        (s.bases[b].running = true → exec .runTimebase s = s.answers 0 .runTimebase q []) ∧
        (s.bases[b].running = false → s.bases[b].source = .core → exec .runTimebase s =
          (s.setBase b { s.bases[b] with
            running := true, interval := some { count := 0, inForce := s.bases[b].divisor } }).answers 0
            .runTimebase q []) ∧
        (s.bases[b].running = false → s.bases[b].source ≠ .core → exec .runTimebase s =
          (s.setBase b { s.bases[b] with running := true, interval := none }).answers 0 .runTimebase q [])) ∧
      (s.carries 0 .haltTimebase q [toByte b.val] → exec .haltTimebase s =
        (s.setBase b { s.bases[b] with running := false, interval := none }).answers 0 .haltTimebase q []) ∧
      (s.carries 0 .setDivisor q ([toByte b.val] ++ wordBytes (d - 1)) →
        (s.bases[b].source = .core → exec .setDivisor s =
          (s.setBase b { s.bases[b] with divisor := d }).answers 0 .setDivisor q []) ∧
        (s.bases[b].source ≠ .core → exec .setDivisor s = s.refuses 0 .setDivisor q .badState))

/-! ## Inhibit groups (chapter 6) -/

/-- R117, R118: CONFIG_INHIBIT and CLEAR_INHIBIT, which refuse any other group, enable or policy; the record side of a
change of state is in `Obligations.GroupTransitionHoldsAndReleases`. -/
def Obligations.InhibitRequests : Prop :=
  ∀ (s : State) (q : Byte) (g : Group),
    let x := s.group g
    let code : Byte := match g with | .a => 1 | .b => 2
    (∀ y e w : Byte, ((y ≠ 1 ∧ y ≠ 2) ∨ 1 < e.toNat ∨ 1 < w.toNat → s.carries 0 .configInhibit q [y, e, w] →
        exec .configInhibit s = s.refuses 0 .configInhibit q .badValue) ∧
      (y ≠ 1 → y ≠ 2 → s.carries 0 .clearInhibit q [y] →
        exec .clearInhibit s = s.refuses 0 .clearInhibit q .badValue)) ∧
    (∀ (en : Bool) (pol : Policy), s.carries 0 .configInhibit q [code, toByte en.toNat, toByte pol.code] →
      let after : GroupState :=
        if en = false then .clear else if x.enabled = true then x.state else if x.line = true then .active else .clear
      exec .configInhibit s =
        ((s.setGroup g { x with enabled := en, policy := pol }).setGroupState g after).answers 0 .configInhibit q
          [toByte en.toNat, toByte pol.code, toByte after.code]) ∧
    (s.carries 0 .clearInhibit q [code] →
      (x.state = .active → exec .clearInhibit s = s.refuses 0 .clearInhibit q .inhibitActive) ∧
      (x.state ≠ .active → exec .clearInhibit s = (s.setGroupState g .clear).answers 0 .clearInhibit q []))

/-- R115, R116: the line events of a group whose line level changes: an ENABLED group goes to ACTIVE at an assertion,
and from ACTIVE to CLEAR or LATCHED at a deassertion by its policy; a DISABLED group keeps its state. The line level
takes the level of the event. MODEL'S CHOICES (log entry 17): the input stays as last sampled, so `narrow` says whether
it differs from the new line level; and while RESETn is low, where the lines are not sampled, the row is the board's
moving of the input, which changes nothing else. -/
def Obligations.LineEventsMoveGroupState : Prop :=
  ∀ (s : State) (g : Group),
    let x := s.group g
    let sees (v : Bool) : State := s.setGroup g { x with line := v, narrow := x.input != v }
    (s.resetn = .high →
      (x.line = false →
        (x.enabled = false → exec (.assertion g) s = .next (sees true)) ∧
        (x.enabled = true → exec (.assertion g) s = .next ((sees true).setGroupState g .active))) ∧
      (x.line = true →
        (x.enabled = false → exec (.deassertion g) s = .next (sees false)) ∧
        (x.enabled = true → exec (.deassertion g) s = .next ((sees false).setGroupState g
          (if x.state = .active then (if x.policy = .auto then .clear else .latched) else x.state))))) ∧
    (s.resetn ≠ .high →
      exec (.assertion g) s = .next (s.setGroup g { x with input := true }) ∧
      exec (.deassertion g) s = .next (s.setGroup g { x with input := false }))

/-- R116, R120, R122, R123: a change of a group's state. From CLEAR to forcing every record whose claimed pin has the
group takes the hold; from forcing to CLEAR every held one is owed a release, which any but a RUNNING periodic record
pays at once; between two forcing states, and for every other record, nothing happens. -/
def Obligations.GroupTransitionHoldsAndReleases : Prop :=
  ∀ (s : State) (g : Group) (x : GroupState),
    let t := s.setGroupState g x
    let mine (r : Record) : Prop := ∃ p, r.pin = some p ∧ s.pins[p].config.group = some g
    t.group g = { s.group g with state := x } ∧ (∀ k, k ≠ g → t.group k = s.group k) ∧
    t = { s with slots := t.slots, groupA := t.groupA, groupB := t.groupB } ∧
    (∀ i : SlotIx, t.slots[i].gen = s.slots[i].gen ∧ (s.slots[i].record = none → t.slots[i].record = none) ∧
      ∀ r, s.slots[i].record = some r →
        (¬ mine r ∨ ((s.group g).state = .clear ↔ x = .clear) → t.slots[i].record = some r) ∧
        (mine r → (s.group g).state = .clear → x ≠ .clear → t.slots[i].record = some
          (if r.held = .clear then ({ r with held := .held } : Record).offer .held else { r with held := .held })) ∧
        (mine r → (s.group g).state ≠ .clear → x = .clear → t.slots[i].record = some
          (if r.held = .held then
            (if r.state = .running ∧ r.kind.periodic = true then { r with held := .owed }
              else ({ r with held := .clear } : Record).offer .released)
          else r)))

/-! ## Laws that every step keeps -/

/-- R143: a step keeps every record's again set within its pending set and its pending set within its enable set. -/
def Obligations.StepKeepsNoticeSetsNested : Prop :=
  ∀ s t : State, s.noticesNested → step s = .next t → t.noticesNested

/-- R37, R56: a step keeps every counter below its record's live period, and staged copies where R56 allows them. -/
def Obligations.StepKeepsCountersBelowPeriod : Prop :=
  ∀ s t : State, s.timingSound → step s = .next t → t.timingSound

/-- R153, R156: a step keeps an idle engine with nothing queued, and at most one slot ACTIVE or SWEEP_ACTIVE, that of
the operation in progress. -/
def Obligations.StepKeepsOneOperationAtATime : Prop :=
  ∀ s t : State, s.engineAgrees → step s = .next t → t.engineAgrees

/-- R102: a step keeps the claims of the pin table and the pin fields of the records in agreement, and every claimed
pin an OUTPUT pin. -/
def Obligations.StepKeepsClaimsAgreed : Prop :=
  ∀ s t : State, s.claimsAgree → step s = .next t → t.claimsAgree

/-- The four laws hold after power-on: nested notice sets, counters below their periods, one operation at a time, and
claims agreed. -/
def Obligations.LawsHoldAfterPowerOn : Prop :=
  State.reset.noticesNested ∧ State.reset.timingSound ∧ State.reset.engineAgrees ∧ State.reset.claimsAgree
end

