-- ==== Sys2Proof/Laws/State.lean ====
section
/-! SUPPORT. What each named update of the state leaves in each field of the state, and what an entry of a changed
table is. The lemmas of the updates hold by rfl; those of mapRecords by one unfolding. -/

namespace Sys2Proof

/-- An entry of a table with one entry replaced. -/
@[simp] theorem put_get {α : Type} {n : Nat} (v : Vector α n) (i : Fin n) (x : α) (k : Nat) (h : k < n) :
    (put v i x)[k] = if k = i.val then x else v[k] := by
  by_cases hk : k = i.val <;> simp [put, hk, eq_comm]

/-- An entry of a table given by a function. -/
@[simp] theorem tab_get {α : Type} {n : Nat} (f : Fin n → α) (k : Nat) (h : k < n) : (tab f)[k] = f ⟨k, h⟩ := by
  simp [tab]

/-- An entry of a table with one entry replaced, by its number in the table's range. -/
@[simp] theorem put_get_fin {α : Type} {n : Nat} (v : Vector α n) (i j : Fin n) (x : α) :
    (put v i x)[j] = if j = i then x else v[j] := by
  simp [Fin.ext_iff]

/-- An entry of a table given by a function, by its number in the table's range. -/
@[simp] theorem tab_get_fin {α : Type} {n : Nat} (f : Fin n → α) (j : Fin n) : (tab f)[j] = f j := by
  simp

/-- Two tables with the same entries are the same table. -/
theorem table_ext {α : Type} {n : Nat} {v w : Vector α n} (h : ∀ i : Fin n, v[i] = w[i]) : v = w := by
  ext k hk
  exact h ⟨k, hk⟩

end Sys2Proof

namespace Sys2Proof.Machine

variable (s : State)

/-! ### setSlot -/

@[simp] theorem setSlot_resetn (i : SlotIx) (x : Slot) : (s.setSlot i x).resetn = s.resetn := rfl
@[simp] theorem setSlot_slots (i : SlotIx) (x : Slot) : (s.setSlot i x).slots = put s.slots i x := rfl
@[simp] theorem setSlot_bases (i : SlotIx) (x : Slot) : (s.setSlot i x).bases = s.bases := rfl
@[simp] theorem setSlot_links (i : SlotIx) (x : Slot) : (s.setSlot i x).links = s.links := rfl
@[simp] theorem setSlot_pins (i : SlotIx) (x : Slot) : (s.setSlot i x).pins = s.pins := rfl
@[simp] theorem setSlot_groupA (i : SlotIx) (x : Slot) : (s.setSlot i x).groupA = s.groupA := rfl
@[simp] theorem setSlot_groupB (i : SlotIx) (x : Slot) : (s.setSlot i x).groupB = s.groupB := rfl
@[simp] theorem setSlot_sessions (i : SlotIx) (x : Slot) : (s.setSlot i x).sessions = s.sessions := rfl
@[simp] theorem setSlot_ports (i : SlotIx) (x : Slot) : (s.setSlot i x).ports = s.ports := rfl
@[simp] theorem setSlot_engine (i : SlotIx) (x : Slot) : (s.setSlot i x).engine = s.engine := rfl
@[simp] theorem setSlot_csnLow (i : SlotIx) (x : Slot) : (s.setSlot i x).csnLow = s.csnLow := rfl
@[simp] theorem setSlot_receiver (i : SlotIx) (x : Slot) : (s.setSlot i x).receiver = s.receiver := rfl
@[simp] theorem setSlot_sdo (i : SlotIx) (x : Slot) : (s.setSlot i x).sdo = s.sdo := rfl
@[simp] theorem setSlot_sdoBits (i : SlotIx) (x : Slot) : (s.setSlot i x).sdoBits = s.sdoBits := rfl
@[simp] theorem setSlot_draws (i : SlotIx) (x : Slot) : (s.setSlot i x).draws = s.draws := rfl
@[simp] theorem setSlot_pending (i : SlotIx) (x : Slot) : (s.setSlot i x).pending = s.pending := rfl

/-! ### setRecord -/

@[simp] theorem setRecord_resetn (i : SlotIx) (r : Record) : (s.setRecord i r).resetn = s.resetn := rfl
@[simp] theorem setRecord_slots (i : SlotIx) (r : Record) :
    (s.setRecord i r).slots = put s.slots i { gen := s.slots[i].gen, record := some r } := rfl
@[simp] theorem setRecord_bases (i : SlotIx) (r : Record) : (s.setRecord i r).bases = s.bases := rfl
@[simp] theorem setRecord_links (i : SlotIx) (r : Record) : (s.setRecord i r).links = s.links := rfl
@[simp] theorem setRecord_pins (i : SlotIx) (r : Record) : (s.setRecord i r).pins = s.pins := rfl
@[simp] theorem setRecord_groupA (i : SlotIx) (r : Record) : (s.setRecord i r).groupA = s.groupA := rfl
@[simp] theorem setRecord_groupB (i : SlotIx) (r : Record) : (s.setRecord i r).groupB = s.groupB := rfl
@[simp] theorem setRecord_sessions (i : SlotIx) (r : Record) : (s.setRecord i r).sessions = s.sessions := rfl
@[simp] theorem setRecord_ports (i : SlotIx) (r : Record) : (s.setRecord i r).ports = s.ports := rfl
@[simp] theorem setRecord_engine (i : SlotIx) (r : Record) : (s.setRecord i r).engine = s.engine := rfl
@[simp] theorem setRecord_csnLow (i : SlotIx) (r : Record) : (s.setRecord i r).csnLow = s.csnLow := rfl
@[simp] theorem setRecord_receiver (i : SlotIx) (r : Record) : (s.setRecord i r).receiver = s.receiver := rfl
@[simp] theorem setRecord_sdo (i : SlotIx) (r : Record) : (s.setRecord i r).sdo = s.sdo := rfl
@[simp] theorem setRecord_sdoBits (i : SlotIx) (r : Record) : (s.setRecord i r).sdoBits = s.sdoBits := rfl
@[simp] theorem setRecord_draws (i : SlotIx) (r : Record) : (s.setRecord i r).draws = s.draws := rfl
@[simp] theorem setRecord_pending (i : SlotIx) (r : Record) : (s.setRecord i r).pending = s.pending := rfl

/-! ### mapRecords -/

@[simp] theorem mapRecords_resetn (f : Record → Record) : (s.mapRecords f).resetn = s.resetn := by simp only [State.mapRecords]
@[simp] theorem mapRecords_slots (f : Record → Record) :
    (s.mapRecords f).slots = tab fun i => { s.slots[i] with record := s.slots[i].record.map f } := by simp only [State.mapRecords]
@[simp] theorem mapRecords_bases (f : Record → Record) : (s.mapRecords f).bases = s.bases := by simp only [State.mapRecords]
@[simp] theorem mapRecords_links (f : Record → Record) : (s.mapRecords f).links = s.links := by simp only [State.mapRecords]
@[simp] theorem mapRecords_pins (f : Record → Record) : (s.mapRecords f).pins = s.pins := by simp only [State.mapRecords]
@[simp] theorem mapRecords_groupA (f : Record → Record) : (s.mapRecords f).groupA = s.groupA := by simp only [State.mapRecords]
@[simp] theorem mapRecords_groupB (f : Record → Record) : (s.mapRecords f).groupB = s.groupB := by simp only [State.mapRecords]
@[simp] theorem mapRecords_sessions (f : Record → Record) : (s.mapRecords f).sessions = s.sessions := by simp only [State.mapRecords]
@[simp] theorem mapRecords_ports (f : Record → Record) : (s.mapRecords f).ports = s.ports := by simp only [State.mapRecords]
@[simp] theorem mapRecords_engine (f : Record → Record) : (s.mapRecords f).engine = s.engine := by simp only [State.mapRecords]
@[simp] theorem mapRecords_csnLow (f : Record → Record) : (s.mapRecords f).csnLow = s.csnLow := by simp only [State.mapRecords]
@[simp] theorem mapRecords_receiver (f : Record → Record) : (s.mapRecords f).receiver = s.receiver := by simp only [State.mapRecords]
@[simp] theorem mapRecords_sdo (f : Record → Record) : (s.mapRecords f).sdo = s.sdo := by simp only [State.mapRecords]
@[simp] theorem mapRecords_sdoBits (f : Record → Record) : (s.mapRecords f).sdoBits = s.sdoBits := by simp only [State.mapRecords]
@[simp] theorem mapRecords_draws (f : Record → Record) : (s.mapRecords f).draws = s.draws := by simp only [State.mapRecords]
@[simp] theorem mapRecords_pending (f : Record → Record) : (s.mapRecords f).pending = s.pending := by simp only [State.mapRecords]

/-! ### setBase -/

@[simp] theorem setBase_resetn (b : Base) (x : TimeBase) : (s.setBase b x).resetn = s.resetn := rfl
@[simp] theorem setBase_slots (b : Base) (x : TimeBase) : (s.setBase b x).slots = s.slots := rfl
@[simp] theorem setBase_bases (b : Base) (x : TimeBase) : (s.setBase b x).bases = put s.bases b x := rfl
@[simp] theorem setBase_links (b : Base) (x : TimeBase) : (s.setBase b x).links = s.links := rfl
@[simp] theorem setBase_pins (b : Base) (x : TimeBase) : (s.setBase b x).pins = s.pins := rfl
@[simp] theorem setBase_groupA (b : Base) (x : TimeBase) : (s.setBase b x).groupA = s.groupA := rfl
@[simp] theorem setBase_groupB (b : Base) (x : TimeBase) : (s.setBase b x).groupB = s.groupB := rfl
@[simp] theorem setBase_sessions (b : Base) (x : TimeBase) : (s.setBase b x).sessions = s.sessions := rfl
@[simp] theorem setBase_ports (b : Base) (x : TimeBase) : (s.setBase b x).ports = s.ports := rfl
@[simp] theorem setBase_engine (b : Base) (x : TimeBase) : (s.setBase b x).engine = s.engine := rfl
@[simp] theorem setBase_csnLow (b : Base) (x : TimeBase) : (s.setBase b x).csnLow = s.csnLow := rfl
@[simp] theorem setBase_receiver (b : Base) (x : TimeBase) : (s.setBase b x).receiver = s.receiver := rfl
@[simp] theorem setBase_sdo (b : Base) (x : TimeBase) : (s.setBase b x).sdo = s.sdo := rfl
@[simp] theorem setBase_sdoBits (b : Base) (x : TimeBase) : (s.setBase b x).sdoBits = s.sdoBits := rfl
@[simp] theorem setBase_draws (b : Base) (x : TimeBase) : (s.setBase b x).draws = s.draws := rfl
@[simp] theorem setBase_pending (b : Base) (x : TimeBase) : (s.setBase b x).pending = s.pending := rfl

/-! ### setLink -/

@[simp] theorem setLink_resetn (i : LinkIx) (x : Option Link) : (s.setLink i x).resetn = s.resetn := rfl
@[simp] theorem setLink_slots (i : LinkIx) (x : Option Link) : (s.setLink i x).slots = s.slots := rfl
@[simp] theorem setLink_bases (i : LinkIx) (x : Option Link) : (s.setLink i x).bases = s.bases := rfl
@[simp] theorem setLink_links (i : LinkIx) (x : Option Link) : (s.setLink i x).links = put s.links i x := rfl
@[simp] theorem setLink_pins (i : LinkIx) (x : Option Link) : (s.setLink i x).pins = s.pins := rfl
@[simp] theorem setLink_groupA (i : LinkIx) (x : Option Link) : (s.setLink i x).groupA = s.groupA := rfl
@[simp] theorem setLink_groupB (i : LinkIx) (x : Option Link) : (s.setLink i x).groupB = s.groupB := rfl
@[simp] theorem setLink_sessions (i : LinkIx) (x : Option Link) : (s.setLink i x).sessions = s.sessions := rfl
@[simp] theorem setLink_ports (i : LinkIx) (x : Option Link) : (s.setLink i x).ports = s.ports := rfl
@[simp] theorem setLink_engine (i : LinkIx) (x : Option Link) : (s.setLink i x).engine = s.engine := rfl
@[simp] theorem setLink_csnLow (i : LinkIx) (x : Option Link) : (s.setLink i x).csnLow = s.csnLow := rfl
@[simp] theorem setLink_receiver (i : LinkIx) (x : Option Link) : (s.setLink i x).receiver = s.receiver := rfl
@[simp] theorem setLink_sdo (i : LinkIx) (x : Option Link) : (s.setLink i x).sdo = s.sdo := rfl
@[simp] theorem setLink_sdoBits (i : LinkIx) (x : Option Link) : (s.setLink i x).sdoBits = s.sdoBits := rfl
@[simp] theorem setLink_draws (i : LinkIx) (x : Option Link) : (s.setLink i x).draws = s.draws := rfl
@[simp] theorem setLink_pending (i : LinkIx) (x : Option Link) : (s.setLink i x).pending = s.pending := rfl

/-! ### setPin -/

@[simp] theorem setPin_resetn (p : Pin) (x : PinEntry) : (s.setPin p x).resetn = s.resetn := rfl
@[simp] theorem setPin_slots (p : Pin) (x : PinEntry) : (s.setPin p x).slots = s.slots := rfl
@[simp] theorem setPin_bases (p : Pin) (x : PinEntry) : (s.setPin p x).bases = s.bases := rfl
@[simp] theorem setPin_links (p : Pin) (x : PinEntry) : (s.setPin p x).links = s.links := rfl
@[simp] theorem setPin_pins (p : Pin) (x : PinEntry) : (s.setPin p x).pins = put s.pins p x := rfl
@[simp] theorem setPin_groupA (p : Pin) (x : PinEntry) : (s.setPin p x).groupA = s.groupA := rfl
@[simp] theorem setPin_groupB (p : Pin) (x : PinEntry) : (s.setPin p x).groupB = s.groupB := rfl
@[simp] theorem setPin_sessions (p : Pin) (x : PinEntry) : (s.setPin p x).sessions = s.sessions := rfl
@[simp] theorem setPin_ports (p : Pin) (x : PinEntry) : (s.setPin p x).ports = s.ports := rfl
@[simp] theorem setPin_engine (p : Pin) (x : PinEntry) : (s.setPin p x).engine = s.engine := rfl
@[simp] theorem setPin_csnLow (p : Pin) (x : PinEntry) : (s.setPin p x).csnLow = s.csnLow := rfl
@[simp] theorem setPin_receiver (p : Pin) (x : PinEntry) : (s.setPin p x).receiver = s.receiver := rfl
@[simp] theorem setPin_sdo (p : Pin) (x : PinEntry) : (s.setPin p x).sdo = s.sdo := rfl
@[simp] theorem setPin_sdoBits (p : Pin) (x : PinEntry) : (s.setPin p x).sdoBits = s.sdoBits := rfl
@[simp] theorem setPin_draws (p : Pin) (x : PinEntry) : (s.setPin p x).draws = s.draws := rfl
@[simp] theorem setPin_pending (p : Pin) (x : PinEntry) : (s.setPin p x).pending = s.pending := rfl

/-! ### setClaim -/

@[simp] theorem setClaim_resetn (p : Pin) (c : Option Handle) : (s.setClaim p c).resetn = s.resetn := rfl
@[simp] theorem setClaim_slots (p : Pin) (c : Option Handle) : (s.setClaim p c).slots = s.slots := rfl
@[simp] theorem setClaim_bases (p : Pin) (c : Option Handle) : (s.setClaim p c).bases = s.bases := rfl
@[simp] theorem setClaim_links (p : Pin) (c : Option Handle) : (s.setClaim p c).links = s.links := rfl
@[simp] theorem setClaim_pins (p : Pin) (c : Option Handle) :
    (s.setClaim p c).pins = put s.pins p { s.pins[p] with claim := c } := rfl
@[simp] theorem setClaim_groupA (p : Pin) (c : Option Handle) : (s.setClaim p c).groupA = s.groupA := rfl
@[simp] theorem setClaim_groupB (p : Pin) (c : Option Handle) : (s.setClaim p c).groupB = s.groupB := rfl
@[simp] theorem setClaim_sessions (p : Pin) (c : Option Handle) : (s.setClaim p c).sessions = s.sessions := rfl
@[simp] theorem setClaim_ports (p : Pin) (c : Option Handle) : (s.setClaim p c).ports = s.ports := rfl
@[simp] theorem setClaim_engine (p : Pin) (c : Option Handle) : (s.setClaim p c).engine = s.engine := rfl
@[simp] theorem setClaim_csnLow (p : Pin) (c : Option Handle) : (s.setClaim p c).csnLow = s.csnLow := rfl
@[simp] theorem setClaim_receiver (p : Pin) (c : Option Handle) : (s.setClaim p c).receiver = s.receiver := rfl
@[simp] theorem setClaim_sdo (p : Pin) (c : Option Handle) : (s.setClaim p c).sdo = s.sdo := rfl
@[simp] theorem setClaim_sdoBits (p : Pin) (c : Option Handle) : (s.setClaim p c).sdoBits = s.sdoBits := rfl
@[simp] theorem setClaim_draws (p : Pin) (c : Option Handle) : (s.setClaim p c).draws = s.draws := rfl
@[simp] theorem setClaim_pending (p : Pin) (c : Option Handle) : (s.setClaim p c).pending = s.pending := rfl

/-! ### setSession -/

@[simp] theorem setSession_resetn (a : Agent) (x : Session) : (s.setSession a x).resetn = s.resetn := rfl
@[simp] theorem setSession_slots (a : Agent) (x : Session) : (s.setSession a x).slots = s.slots := rfl
@[simp] theorem setSession_bases (a : Agent) (x : Session) : (s.setSession a x).bases = s.bases := rfl
@[simp] theorem setSession_links (a : Agent) (x : Session) : (s.setSession a x).links = s.links := rfl
@[simp] theorem setSession_pins (a : Agent) (x : Session) : (s.setSession a x).pins = s.pins := rfl
@[simp] theorem setSession_groupA (a : Agent) (x : Session) : (s.setSession a x).groupA = s.groupA := rfl
@[simp] theorem setSession_groupB (a : Agent) (x : Session) : (s.setSession a x).groupB = s.groupB := rfl
@[simp] theorem setSession_sessions (a : Agent) (x : Session) :
    (s.setSession a x).sessions = put s.sessions a x := rfl
@[simp] theorem setSession_ports (a : Agent) (x : Session) : (s.setSession a x).ports = s.ports := rfl
@[simp] theorem setSession_engine (a : Agent) (x : Session) : (s.setSession a x).engine = s.engine := rfl
@[simp] theorem setSession_csnLow (a : Agent) (x : Session) : (s.setSession a x).csnLow = s.csnLow := rfl
@[simp] theorem setSession_receiver (a : Agent) (x : Session) : (s.setSession a x).receiver = s.receiver := rfl
@[simp] theorem setSession_sdo (a : Agent) (x : Session) : (s.setSession a x).sdo = s.sdo := rfl
@[simp] theorem setSession_sdoBits (a : Agent) (x : Session) : (s.setSession a x).sdoBits = s.sdoBits := rfl
@[simp] theorem setSession_draws (a : Agent) (x : Session) : (s.setSession a x).draws = s.draws := rfl
@[simp] theorem setSession_pending (a : Agent) (x : Session) : (s.setSession a x).pending = s.pending := rfl

/-! ### endLease -/

@[simp] theorem endLease_resetn (a : Agent) : (s.endLease a).resetn = s.resetn := rfl
@[simp] theorem endLease_slots (a : Agent) : (s.endLease a).slots = s.slots := rfl
@[simp] theorem endLease_bases (a : Agent) : (s.endLease a).bases = s.bases := rfl
@[simp] theorem endLease_links (a : Agent) : (s.endLease a).links = s.links := rfl
@[simp] theorem endLease_pins (a : Agent) : (s.endLease a).pins = s.pins := rfl
@[simp] theorem endLease_groupA (a : Agent) : (s.endLease a).groupA = s.groupA := rfl
@[simp] theorem endLease_groupB (a : Agent) : (s.endLease a).groupB = s.groupB := rfl
@[simp] theorem endLease_sessions (a : Agent) :
    (s.endLease a).sessions = put s.sessions a { s.sessions[a] with lease := 0, timer := 0 } := rfl
@[simp] theorem endLease_ports (a : Agent) : (s.endLease a).ports = s.ports := rfl
@[simp] theorem endLease_engine (a : Agent) : (s.endLease a).engine = s.engine := rfl
@[simp] theorem endLease_csnLow (a : Agent) : (s.endLease a).csnLow = s.csnLow := rfl
@[simp] theorem endLease_receiver (a : Agent) : (s.endLease a).receiver = s.receiver := rfl
@[simp] theorem endLease_sdo (a : Agent) : (s.endLease a).sdo = s.sdo := rfl
@[simp] theorem endLease_sdoBits (a : Agent) : (s.endLease a).sdoBits = s.sdoBits := rfl
@[simp] theorem endLease_draws (a : Agent) : (s.endLease a).draws = s.draws := rfl
@[simp] theorem endLease_pending (a : Agent) : (s.endLease a).pending = s.pending := rfl

/-! ### closeSession -/

@[simp] theorem closeSession_resetn (a : Agent) : (s.closeSession a).resetn = s.resetn := rfl
@[simp] theorem closeSession_slots (a : Agent) : (s.closeSession a).slots = s.slots := rfl
@[simp] theorem closeSession_bases (a : Agent) : (s.closeSession a).bases = s.bases := rfl
@[simp] theorem closeSession_links (a : Agent) : (s.closeSession a).links = s.links := rfl
@[simp] theorem closeSession_pins (a : Agent) : (s.closeSession a).pins = s.pins := rfl
@[simp] theorem closeSession_groupA (a : Agent) : (s.closeSession a).groupA = s.groupA := rfl
@[simp] theorem closeSession_groupB (a : Agent) : (s.closeSession a).groupB = s.groupB := rfl
@[simp] theorem closeSession_sessions (a : Agent) :
    (s.closeSession a).sessions = put s.sessions a { state := .closed, lease := 0, timer := 0, attention := false } := rfl
@[simp] theorem closeSession_ports (a : Agent) : (s.closeSession a).ports = s.ports := rfl
@[simp] theorem closeSession_engine (a : Agent) : (s.closeSession a).engine = s.engine := rfl
@[simp] theorem closeSession_csnLow (a : Agent) : (s.closeSession a).csnLow = s.csnLow := rfl
@[simp] theorem closeSession_receiver (a : Agent) : (s.closeSession a).receiver = s.receiver := rfl
@[simp] theorem closeSession_sdo (a : Agent) : (s.closeSession a).sdo = s.sdo := rfl
@[simp] theorem closeSession_sdoBits (a : Agent) : (s.closeSession a).sdoBits = s.sdoBits := rfl
@[simp] theorem closeSession_draws (a : Agent) : (s.closeSession a).draws = s.draws := rfl
@[simp] theorem closeSession_pending (a : Agent) : (s.closeSession a).pending = s.pending := rfl

/-! ### restartLease -/

@[simp] theorem restartLease_resetn (a : Agent) : (s.restartLease a).resetn = s.resetn := rfl
@[simp] theorem restartLease_slots (a : Agent) : (s.restartLease a).slots = s.slots := rfl
@[simp] theorem restartLease_bases (a : Agent) : (s.restartLease a).bases = s.bases := rfl
@[simp] theorem restartLease_links (a : Agent) : (s.restartLease a).links = s.links := rfl
@[simp] theorem restartLease_pins (a : Agent) : (s.restartLease a).pins = s.pins := rfl
@[simp] theorem restartLease_groupA (a : Agent) : (s.restartLease a).groupA = s.groupA := rfl
@[simp] theorem restartLease_groupB (a : Agent) : (s.restartLease a).groupB = s.groupB := rfl
@[simp] theorem restartLease_sessions (a : Agent) :
    (s.restartLease a).sessions = put s.sessions a { s.sessions[a] with timer := s.sessions[a].fullInterval } := rfl
@[simp] theorem restartLease_ports (a : Agent) : (s.restartLease a).ports = s.ports := rfl
@[simp] theorem restartLease_engine (a : Agent) : (s.restartLease a).engine = s.engine := rfl
@[simp] theorem restartLease_csnLow (a : Agent) : (s.restartLease a).csnLow = s.csnLow := rfl
@[simp] theorem restartLease_receiver (a : Agent) : (s.restartLease a).receiver = s.receiver := rfl
@[simp] theorem restartLease_sdo (a : Agent) : (s.restartLease a).sdo = s.sdo := rfl
@[simp] theorem restartLease_sdoBits (a : Agent) : (s.restartLease a).sdoBits = s.sdoBits := rfl
@[simp] theorem restartLease_draws (a : Agent) : (s.restartLease a).draws = s.draws := rfl
@[simp] theorem restartLease_pending (a : Agent) : (s.restartLease a).pending = s.pending := rfl

/-! ### setPort -/

@[simp] theorem setPort_resetn (a : Agent) (x : Port) : (s.setPort a x).resetn = s.resetn := rfl
@[simp] theorem setPort_slots (a : Agent) (x : Port) : (s.setPort a x).slots = s.slots := rfl
@[simp] theorem setPort_bases (a : Agent) (x : Port) : (s.setPort a x).bases = s.bases := rfl
@[simp] theorem setPort_links (a : Agent) (x : Port) : (s.setPort a x).links = s.links := rfl
@[simp] theorem setPort_pins (a : Agent) (x : Port) : (s.setPort a x).pins = s.pins := rfl
@[simp] theorem setPort_groupA (a : Agent) (x : Port) : (s.setPort a x).groupA = s.groupA := rfl
@[simp] theorem setPort_groupB (a : Agent) (x : Port) : (s.setPort a x).groupB = s.groupB := rfl
@[simp] theorem setPort_sessions (a : Agent) (x : Port) : (s.setPort a x).sessions = s.sessions := rfl
@[simp] theorem setPort_ports (a : Agent) (x : Port) : (s.setPort a x).ports = put s.ports a x := rfl
@[simp] theorem setPort_engine (a : Agent) (x : Port) : (s.setPort a x).engine = s.engine := rfl
@[simp] theorem setPort_csnLow (a : Agent) (x : Port) : (s.setPort a x).csnLow = s.csnLow := rfl
@[simp] theorem setPort_receiver (a : Agent) (x : Port) : (s.setPort a x).receiver = s.receiver := rfl
@[simp] theorem setPort_sdo (a : Agent) (x : Port) : (s.setPort a x).sdo = s.sdo := rfl
@[simp] theorem setPort_sdoBits (a : Agent) (x : Port) : (s.setPort a x).sdoBits = s.sdoBits := rfl
@[simp] theorem setPort_draws (a : Agent) (x : Port) : (s.setPort a x).draws = s.draws := rfl
@[simp] theorem setPort_pending (a : Agent) (x : Port) : (s.setPort a x).pending = s.pending := rfl

/-! ### setOp -/

@[simp] theorem setOp_resetn (op : Option Operation) : (s.setOp op).resetn = s.resetn := rfl
@[simp] theorem setOp_slots (op : Option Operation) : (s.setOp op).slots = s.slots := rfl
@[simp] theorem setOp_bases (op : Option Operation) : (s.setOp op).bases = s.bases := rfl
@[simp] theorem setOp_links (op : Option Operation) : (s.setOp op).links = s.links := rfl
@[simp] theorem setOp_pins (op : Option Operation) : (s.setOp op).pins = s.pins := rfl
@[simp] theorem setOp_groupA (op : Option Operation) : (s.setOp op).groupA = s.groupA := rfl
@[simp] theorem setOp_groupB (op : Option Operation) : (s.setOp op).groupB = s.groupB := rfl
@[simp] theorem setOp_sessions (op : Option Operation) : (s.setOp op).sessions = s.sessions := rfl
@[simp] theorem setOp_ports (op : Option Operation) : (s.setOp op).ports = s.ports := rfl
@[simp] theorem setOp_engine (op : Option Operation) : (s.setOp op).engine = { s.engine with op := op } := rfl
@[simp] theorem setOp_csnLow (op : Option Operation) : (s.setOp op).csnLow = s.csnLow := rfl
@[simp] theorem setOp_receiver (op : Option Operation) : (s.setOp op).receiver = s.receiver := rfl
@[simp] theorem setOp_sdo (op : Option Operation) : (s.setOp op).sdo = s.sdo := rfl
@[simp] theorem setOp_sdoBits (op : Option Operation) : (s.setOp op).sdoBits = s.sdoBits := rfl
@[simp] theorem setOp_draws (op : Option Operation) : (s.setOp op).draws = s.draws := rfl
@[simp] theorem setOp_pending (op : Option Operation) : (s.setOp op).pending = s.pending := rfl

/-! ### draw -/

@[simp] theorem draw_resetn : (s.draw).resetn = s.resetn := rfl
@[simp] theorem draw_slots : (s.draw).slots = s.slots := rfl
@[simp] theorem draw_bases : (s.draw).bases = s.bases := rfl
@[simp] theorem draw_links : (s.draw).links = s.links := rfl
@[simp] theorem draw_pins : (s.draw).pins = s.pins := rfl
@[simp] theorem draw_groupA : (s.draw).groupA = s.groupA := rfl
@[simp] theorem draw_groupB : (s.draw).groupB = s.groupB := rfl
@[simp] theorem draw_sessions : (s.draw).sessions = s.sessions := rfl
@[simp] theorem draw_ports : (s.draw).ports = s.ports := rfl
@[simp] theorem draw_engine : (s.draw).engine = s.engine := rfl
@[simp] theorem draw_csnLow : (s.draw).csnLow = s.csnLow := rfl
@[simp] theorem draw_receiver : (s.draw).receiver = s.receiver := rfl
@[simp] theorem draw_sdo : (s.draw).sdo = s.sdo := rfl
@[simp] theorem draw_sdoBits : (s.draw).sdoBits = s.sdoBits := rfl
@[simp] theorem draw_draws : (s.draw).draws = s.draws + 1 := rfl
@[simp] theorem draw_pending : (s.draw).pending = s.pending := rfl

/-! ### setGroup -/

@[simp] theorem setGroup_resetn (g : Group) (x : InhibitGroup) : (s.setGroup g x).resetn = s.resetn := by cases g <;> rfl
@[simp] theorem setGroup_slots (g : Group) (x : InhibitGroup) : (s.setGroup g x).slots = s.slots := by cases g <;> rfl
@[simp] theorem setGroup_bases (g : Group) (x : InhibitGroup) : (s.setGroup g x).bases = s.bases := by cases g <;> rfl
@[simp] theorem setGroup_links (g : Group) (x : InhibitGroup) : (s.setGroup g x).links = s.links := by cases g <;> rfl
@[simp] theorem setGroup_pins (g : Group) (x : InhibitGroup) : (s.setGroup g x).pins = s.pins := by cases g <;> rfl
@[simp] theorem setGroup_sessions (g : Group) (x : InhibitGroup) : (s.setGroup g x).sessions = s.sessions := by cases g <;> rfl
@[simp] theorem setGroup_ports (g : Group) (x : InhibitGroup) : (s.setGroup g x).ports = s.ports := by cases g <;> rfl
@[simp] theorem setGroup_engine (g : Group) (x : InhibitGroup) : (s.setGroup g x).engine = s.engine := by cases g <;> rfl
@[simp] theorem setGroup_csnLow (g : Group) (x : InhibitGroup) : (s.setGroup g x).csnLow = s.csnLow := by cases g <;> rfl
@[simp] theorem setGroup_receiver (g : Group) (x : InhibitGroup) : (s.setGroup g x).receiver = s.receiver := by cases g <;> rfl
@[simp] theorem setGroup_sdo (g : Group) (x : InhibitGroup) : (s.setGroup g x).sdo = s.sdo := by cases g <;> rfl
@[simp] theorem setGroup_sdoBits (g : Group) (x : InhibitGroup) : (s.setGroup g x).sdoBits = s.sdoBits := by cases g <;> rfl
@[simp] theorem setGroup_draws (g : Group) (x : InhibitGroup) : (s.setGroup g x).draws = s.draws := by cases g <;> rfl
@[simp] theorem setGroup_pending (g : Group) (x : InhibitGroup) : (s.setGroup g x).pending = s.pending := by cases g <;> rfl
@[simp] theorem setGroup_a_groupA (x : InhibitGroup) : (s.setGroup .a x).groupA = x := rfl
@[simp] theorem setGroup_a_groupB (x : InhibitGroup) : (s.setGroup .a x).groupB = s.groupB := rfl
@[simp] theorem setGroup_b_groupA (x : InhibitGroup) : (s.setGroup .b x).groupA = s.groupA := rfl
@[simp] theorem setGroup_b_groupB (x : InhibitGroup) : (s.setGroup .b x).groupB = x := rfl

/-- R114: the two groups are separate. -/
@[simp] theorem setGroup_group (g k : Group) (x : InhibitGroup) :
    (s.setGroup g x).group k = if k = g then x else s.group k := by
  cases g <;> cases k <;> rfl

end Sys2Proof.Machine
end

