-- ==== Sys2Proof/Laws/Orders.lean ====
section
/-! SUPPORT. The orders that the manual does not fix (R82): whatever the free value, every waiting event is handed on
once, and each source's events in their own order. -/

namespace Sys2Proof.Machine

/-- The fuel that takes every event of the queues and then each queue's end. -/
def enough {α : Type} (qs : List (List α)) : Nat :=
  (qs.map fun q => q.length + 1).sum

theorem enough_eraseIdx {α : Type} (qs : List (List α)) (k : Nat) (h : k < qs.length) :
    enough (qs.eraseIdx k) + (qs[k].length + 1) = enough qs := by
  induction qs generalizing k with
  | nil => simp at h
  | cons q qs ih =>
    cases k with
    | zero => simp [enough]; omega
    | succ k =>
      have := ih k (by simpa using h)
      simp only [enough, List.eraseIdx_cons_succ, List.map_cons, List.sum_cons, List.getElem_cons_succ] at this ⊢
      omega

theorem enough_set {α : Type} (qs : List (List α)) (k : Nat) (h : k < qs.length) (q : List α) :
    enough (qs.set k q) + qs[k].length = enough qs + q.length := by
  induction qs generalizing k with
  | nil => simp at h
  | cons p qs ih =>
    cases k with
    | zero => simp [enough]; omega
    | succ k =>
      have := ih k (by simpa using h)
      simp only [enough, List.set_cons_succ, List.map_cons, List.sum_cons, List.getElem_cons_succ] at this ⊢
      omega

theorem perm_flatten_eraseIdx {α : Type} (qs : List (List α)) (k : Nat) (h : k < qs.length) :
    (qs[k] ++ (qs.eraseIdx k).flatten).Perm qs.flatten := by
  induction qs generalizing k with
  | nil => simp at h
  | cons q qs ih =>
    cases k with
    | zero => simp
    | succ k =>
      have := ih k (by simpa using h)
      simp only [List.eraseIdx_cons_succ, List.flatten_cons, List.getElem_cons_succ]
      exact (List.perm_append_comm_assoc _ _ _).trans (this.append_left q)

theorem perm_flatten_set {α : Type} (qs : List (List α)) (k : Nat) (h : k < qs.length) (x : α) (q : List α)
    (hk : qs[k] = x :: q) : (x :: (qs.set k q).flatten).Perm qs.flatten := by
  induction qs generalizing k with
  | nil => simp at h
  | cons p qs ih =>
    cases k with
    | zero =>
      simp only [List.getElem_cons_zero] at hk
      simp [hk]
    | succ k =>
      have := ih k (by simpa using h) (by simpa using hk)
      simp only [List.set_cons_succ, List.flatten_cons]
      exact List.perm_middle.symm.trans (this.append_left p)

/-- R82: every waiting event is handed on exactly once. -/
theorem interleave_perm {α : Type} (pick : Nat → Nat) (n : Nat) (qs : List (List α)) (h : enough qs ≤ n) :
    (interleave pick n qs).Perm qs.flatten := by
  induction n generalizing qs with
  | zero =>
    cases qs with
    | nil => simp [interleave]
    | cons q qs => simp [enough] at h
  | succ n ih =>
    match qs with
    | [] => simp [interleave]
    | [q] => simp [interleave]
    | q :: q' :: qs =>
      simp only [interleave]
      generalize hall : q :: q' :: qs = all at h
      have hk : pick n % all.length < all.length := Nat.mod_lt _ (by simp [← hall])
      generalize pick n % all.length = k at hk
      have he := enough_eraseIdx all k hk
      have hp := perm_flatten_eraseIdx all k hk
      rw [List.getElem?_eq_getElem hk]
      split
      · rename_i x y rest hx
        simp only [Option.some.injEq] at hx
        have hs := enough_set all k hk (y :: rest)
        rw [hx] at hs
        simp only [List.length_cons] at hs
        exact ((ih _ (by omega)).cons x).trans (perm_flatten_set all k hk x (y :: rest) hx)
      · rename_i x hx
        simp only [Option.some.injEq] at hx
        rw [hx] at hp he
        exact ((ih _ (by omega)).cons x).trans hp
      · rename_i h1 h2
        have hnil : all[k] = [] := by
          match hq : all[k] with
          | [] => rfl
          | [x] => exact absurd (by rw [hq]) (h2 x)
          | x :: y :: rest => exact absurd (by rw [hq]) (h1 x y rest)
        rw [hnil] at hp
        exact (ih _ (by omega)).trans hp

theorem filter_flatten_eraseIdx {α : Type} (p : α → Bool) (qs : List (List α)) (k : Nat) (h : k < qs.length)
    (hp : ∀ x ∈ qs[k], p x = false) : ((qs.eraseIdx k).flatten).filter p = qs.flatten.filter p := by
  induction qs generalizing k with
  | nil => simp at h
  | cons q qs ih =>
    cases k with
    | zero =>
      simp only [List.getElem_cons_zero] at hp
      have : q.filter p = [] := List.filter_eq_nil_iff.2 fun x hx => by simp [hp x hx]
      simp [this]
    | succ k =>
      simp only [List.eraseIdx_cons_succ, List.flatten_cons, List.filter_append]
      rw [ih k (by simpa using h) (by simpa using hp)]

/-- R82: each source's events keep their own order. `p` tells one source's events from the others'. -/
theorem interleave_filter {α : Type} (pick : Nat → Nat) (n : Nat) (qs : List (List α)) (h : enough qs ≤ n)
    (p : α → Bool) (one : ∀ (i j : Nat) (hi : i < qs.length) (hj : j < qs.length) (x y : α),
      x ∈ qs[i] → y ∈ qs[j] → p x = true → (p y = true ↔ i = j)) :
    (interleave pick n qs).filter p = qs.flatten.filter p := by
  by_cases hq : ∃ (i : Nat) (hi : i < qs.length) (x : α), x ∈ qs[i] ∧ p x = true
  · obtain ⟨i, hi, x, hx, hpx⟩ := hq
    have hin : ∀ y ∈ qs[i], p y = true := fun y hy => (one i i hi hi x y hx hy hpx).2 rfl
    have hout : ∀ (j : Nat) (hj : j < qs.length), j ≠ i → ∀ y ∈ qs[j], p y = false := by
      intro j hj hne y hy
      by_contra hc
      exact hne ((one i j hi hj x y hx hy hpx).1 (by simpa using hc)).symm
    have key : ∀ (n : Nat) (qs : List (List α)) (i : Nat) (hi : i < qs.length), enough qs ≤ n →
        (∀ y ∈ qs[i], p y = true) → (∀ (j : Nat) (hj : j < qs.length), j ≠ i → ∀ y ∈ qs[j], p y = false) →
        (interleave pick n qs).filter p = qs[i] ∧ qs.flatten.filter p = qs[i] := by
      intro n
      induction n with
      | zero =>
        intro qs i hi he
        cases qs with
        | nil => simp at hi
        | cons q qs => simp [enough] at he
      | succ n ih =>
        intro qs i hi he hin hout
        have hflat : qs.flatten.filter p = qs[i] := by
          clear ih he
          induction qs generalizing i with
          | nil => simp at hi
          | cons q qs ihq =>
            cases i with
            | zero =>
              have h0 : (qs.flatten).filter p = [] := by
                refine List.filter_eq_nil_iff.2 fun y hy => ?_
                obtain ⟨l, hl, hyl⟩ := List.mem_flatten.1 hy
                obtain ⟨j, hj, rfl⟩ := List.mem_iff_getElem.1 hl
                simpa using hout (j + 1) (by simpa using hj) (by omega) y (by simpa using hyl)
              have h1 : q.filter p = q := List.filter_eq_self.2 fun y hy => hin y (by simpa using hy)
              simp [h0, h1]
            | succ i =>
              have h0 : q.filter p = [] :=
                List.filter_eq_nil_iff.2 fun y hy => by
                  simpa using hout 0 (by simp) (by omega) y (by simpa using hy)
              simp only [List.flatten_cons, List.filter_append, h0, List.nil_append, List.getElem_cons_succ]
              exact ihq i (by simpa using hi) (fun y hy => hin y (by simpa using hy)) fun j hj hne y hy =>
                hout (j + 1) (by simpa using hj) (by omega) y (by simpa using hy)
        refine ⟨?_, hflat⟩
        match qs, hi with
        | [q], hi =>
          have : i = 0 := by simpa using hi
          subst this
          simpa [interleave] using fun y hy => hin y (by simpa using hy)
        | q :: q' :: qs, hi =>
          simp only [interleave]
          generalize hall : q :: q' :: qs = all at *
          have hk : pick n % all.length < all.length := Nat.mod_lt _ (by simp [← hall])
          generalize pick n % all.length = k at hk
          have hee := enough_eraseIdx all k hk
          rw [List.getElem?_eq_getElem hk]
          have drop : ∀ q₀, all[k] = q₀ → (∀ x ∈ q₀, p x = true → k = i ∧ q₀ = [x]) → q₀.length ≤ 1 →
              q₀.filter p ++ (interleave pick n (all.eraseIdx k)).filter p = all[i] := by
            intro q₀ hq₀ hone hlen
            by_cases hki : k = i
            · subst hki
              have hf : q₀.filter p = q₀ := List.filter_eq_self.2 fun y hy => hin y (by rw [hq₀]; exact hy)
              have hrest : (interleave pick n (all.eraseIdx k)).filter p = [] := by
                refine List.filter_eq_nil_iff.2 fun y hy => ?_
                have hm := (interleave_perm pick n (all.eraseIdx k) (by omega)).mem_iff.1 hy
                obtain ⟨l, hl, hyl⟩ := List.mem_flatten.1 hm
                obtain ⟨j, hj, hjl⟩ := List.mem_eraseIdx_iff_getElem.1 hl
                obtain ⟨hne, rfl⟩ := hjl
                simpa using hout j hj hne y hyl
              rw [hf, hrest, List.append_nil, hq₀]
            · have hf : q₀.filter p = [] := List.filter_eq_nil_iff.2 fun y hy => by
                simpa using hout k hk hki y (by rw [hq₀]; exact hy)
              rw [hf, List.nil_append]
              by_cases hlt : i < k
              · have hi' : i < (all.eraseIdx k).length := by rw [List.length_eraseIdx_of_lt hk]; omega
                have hgi : (all.eraseIdx k)[i] = all[i] := by rw [List.getElem_eraseIdx, dif_pos hlt]
                have := (ih (all.eraseIdx k) i hi' (by omega) (by rw [hgi]; exact hin) (by
                  intro j hj hne y hy
                  rw [List.getElem_eraseIdx] at hy
                  split at hy
                  · exact hout j _ hne y hy
                  · exact hout (j + 1) _ (by omega) y hy)).1
                rw [this, hgi]
              · have hik : k < i := by omega
                have hi' : i - 1 < (all.eraseIdx k).length := by rw [List.length_eraseIdx_of_lt hk]; omega
                have hgi : (all.eraseIdx k)[i - 1] = all[i] := by
                  rw [List.getElem_eraseIdx, dif_neg (by omega)]
                  congr 1
                  omega
                have := (ih (all.eraseIdx k) (i - 1) hi' (by omega) (by rw [hgi]; exact hin) (by
                  intro j hj hne y hy
                  rw [List.getElem_eraseIdx] at hy
                  split at hy
                  · exact hout j _ (by omega) y hy
                  · exact hout (j + 1) _ (by omega) y hy)).1
                rw [this, hgi]
          split
          · rename_i x y rest hx
            simp only [Option.some.injEq] at hx
            have hs := enough_set all k hk (y :: rest)
            rw [hx] at hs
            simp only [List.length_cons] at hs
            have hlen : i < (all.set k (y :: rest)).length := by simpa using hi
            have := (ih (all.set k (y :: rest)) i hlen (by omega) (by
              intro z hz
              rw [List.getElem_set] at hz
              split at hz
              · rename_i hki
                subst hki
                exact hin z (by rw [hx]; exact List.mem_cons_of_mem _ hz)
              · exact hin z hz) (by
              intro j hj hne z hz
              rw [List.getElem_set] at hz
              split at hz
              · rename_i hkj
                subst hkj
                exact hout k hk hne z (by rw [hx]; exact List.mem_cons_of_mem _ hz)
              · exact hout j (by simpa using hj) hne z hz)).1
            by_cases hki : k = i
            · subst hki
              have hpx : p x = true := hin x (by rw [hx]; exact List.mem_cons_self)
              rw [List.filter_cons_of_pos hpx, this, List.getElem_set_self, hx]
            · have hpx : p x = false := hout k hk hki x (by rw [hx]; exact List.mem_cons_self)
              rw [List.filter_cons_of_neg (by simp [hpx]), this, List.getElem_set_ne hki]
          · rename_i x hx
            simp only [Option.some.injEq] at hx
            have := drop [x] hx (fun z hz hpz => by
              have hzx : z = x := by simpa using hz
              subst hzx
              refine ⟨?_, rfl⟩
              by_contra hne
              exact absurd hpz (by simp [hout k hk hne z (by rw [hx]; exact List.mem_cons_self)])) (by simp)
            by_cases hpx : p x = true
            · simpa [hpx] using this
            · simpa [hpx] using this
          · rename_i h1 h2
            have hnil : all[k] = [] := by
              match hq : all[k] with
              | [] => rfl
              | [x] => exact absurd (by rw [hq]) (h2 x)
              | x :: y :: rest => exact absurd (by rw [hq]) (h1 x y rest)
            simpa using drop [] hnil (by simp) (by simp)
    have := key n qs i hi h hin hout
    rw [this.1, this.2]
  · have none_ : ∀ y ∈ qs.flatten, p y = false := by
      intro y hy
      obtain ⟨l, hl, hyl⟩ := List.mem_flatten.1 hy
      obtain ⟨j, hj, rfl⟩ := List.mem_iff_getElem.1 hl
      by_contra hc
      exact hq ⟨j, hj, y, hyl, by simpa using hc⟩
    have h1 : qs.flatten.filter p = [] := List.filter_eq_nil_iff.2 fun y hy => by simp [none_ y hy]
    have h2 : (interleave pick n qs).filter p = [] := List.filter_eq_nil_iff.2 fun y hy => by
      simp [none_ y ((interleave_perm pick n qs h).mem_iff.1 hy)]
    rw [h1, h2]

/-- R82: the order of the waiting events of several sources is a permutation of them. -/
theorem anyOrder_perm {α : Type} (s : State) (qs : List (List α)) : (s.anyOrder qs).Perm qs.flatten :=
  interleave_perm _ _ qs (le_refl (enough qs))

/-- R82: the order of the waiting events of several sources keeps each source's own order. -/
theorem anyOrder_filter {α : Type} (s : State) (qs : List (List α)) (p : α → Bool)
    (one : ∀ (i j : Nat) (hi : i < qs.length) (hj : j < qs.length) (x y : α),
      x ∈ qs[i] → y ∈ qs[j] → p x = true → (p y = true ↔ i = j)) :
    (s.anyOrder qs).filter p = qs.flatten.filter p :=
  interleave_filter _ _ qs (le_refl (enough qs)) p one

end Sys2Proof.Machine
end

