-- ==== Sys2Proof/Laws/Clock.lean ====
section
/-! SUPPORT. What a core-clock period leaves in each field, and what sampling, a line event and a reset leave in an
inhibit group. -/

namespace Sys2Proof.Machine

/-! ## A group (R115) -/

section
variable (x : InhibitGroup) (v : Bool)

@[simp] theorem setLine_enabled : (x.setLine v).enabled = x.enabled := rfl
@[simp] theorem setLine_policy : (x.setLine v).policy = x.policy := rfl
@[simp] theorem setLine_state : (x.setLine v).state = x.state := rfl
@[simp] theorem setLine_line : (x.setLine v).line = v := rfl
@[simp] theorem setLine_input : (x.setLine v).input = x.input := rfl
@[simp] theorem setLine_narrow : (x.setLine v).narrow = (x.input != v) := rfl

@[simp] theorem taken_enabled : x.taken.enabled = x.enabled := rfl
@[simp] theorem taken_policy : x.taken.policy = x.policy := rfl
@[simp] theorem taken_state : x.taken.state = x.state := rfl
@[simp] theorem taken_line : x.taken.line = x.input := rfl
@[simp] theorem taken_input : x.taken.input = x.input := rfl
@[simp] theorem taken_narrow : x.taken.narrow = false := rfl
end

variable (s : State)

section
variable (g : Group)

@[simp] theorem sampledGroup_enabled : (s.sampledGroup g).enabled = (s.group g).enabled := rfl
@[simp] theorem sampledGroup_policy : (s.sampledGroup g).policy = (s.group g).policy := rfl
@[simp] theorem sampledGroup_state : (s.sampledGroup g).state = (s.group g).state := rfl
@[simp] theorem sampledGroup_line : (s.sampledGroup g).line = (s.group g).line := rfl
@[simp] theorem sampledGroup_input : (s.sampledGroup g).input = s.inhibitAt g := rfl
@[simp] theorem sampledGroup_narrow : (s.sampledGroup g).narrow = (s.inhibitAt g != (s.group g).line) := rfl
end

/-! ## The clock -/

/-- Everything that a core-clock period can do: nothing while RESETn is low; else it samples, counts and queues what
comes due, each event once, in an order that the manual does not fix. -/
theorem clock_cases :
    (s.resetn ≠ .high ∧ s.clock = s) ∨
      (s.resetn = .high ∧ ∃ events : List Instr, events.Perm s.due ∧
        s.clock = { s with
          pins := tab s.sampled
          groupA := s.sampledGroup .a
          groupB := s.sampledGroup .b
          bases := tab fun b => s.bases[b].counted
          sessions := tab s.timed
          draws := s.draws + 1
          pending := events }) := by
  by_cases h : s.resetn = .high
  · refine .inr ⟨h, s.anyOrder (s.due.map fun c => [c]), (anyOrder_perm s _).trans ?_, by simp [State.clock, h]⟩
    simp [← List.flatMap_def]
  · exact .inl ⟨h, by simp [State.clock, h]⟩

/-- R115: a line event is `lineChange` from the level that it leaves. -/
theorem lineChange_eq_iff (g k : Group) (line asserted : Bool) :
    lineChange k line = (if asserted then Instr.assertion g else .deassertion g) ↔ k = g ∧ line = !asserted := by
  cases g <;> cases k <;> cases line <;> cases asserted <;> decide

/-- R115: the line events that a core-clock period brings. -/
theorem mem_due_lineChange (g : Group) (asserted : Bool) :
    (if asserted then Instr.assertion g else .deassertion g) ∈ s.due ↔
      s.lineDue g = true ∧ (s.group g).line = !asserted := by
  have pins : ∀ p d, Instr.edge p d ≠ (if asserted then Instr.assertion g else .deassertion g) := by
    intro p d; split <;> simp
  have ticks : ∀ b, Instr.tick b ≠ (if asserted then Instr.assertion g else .deassertion g) := by
    intro b; split <;> simp
  have leases : ∀ a, Instr.leaseExpiry a ≠ (if asserted then Instr.assertion g else .deassertion g) := by
    intro a; split <;> simp
  have both : ∀ k : Group, k ∈ [Group.a, .b] := by intro k; cases k <;> simp
  simp only [State.due, List.mem_append, List.mem_map, List.mem_filter, pins, ticks, leases, and_false, exists_false,
    or_false, false_or, both, true_and, lineChange_eq_iff]
  exact ⟨fun ⟨_, h, hk, hl⟩ => hk ▸ ⟨h, hl⟩, fun ⟨h, hl⟩ => ⟨g, h, rfl, hl⟩⟩

end Sys2Proof.Machine
end

