-- ==== Sys2Proof/Laws/Operands.lean ====
section
/-! SUPPORT. The fields of frames (R178): a field written by a response is read back by a request as the same value. -/

namespace Sys2Proof.Machine

/-! ## Bytes and words at a position -/

@[simp] theorem byteAt_zero (x : Byte) (l : List Byte) : byteAt (x :: l) 0 = x := rfl

@[simp] theorem byteAt_succ (x : Byte) (l : List Byte) (i : Nat) : byteAt (x :: l) (i + 1) = byteAt l i := by
  simp [byteAt]

@[simp] theorem byteAt_lit (x : Byte) (l : List Byte) (i : Nat) [i.AtLeastTwo] :
    byteAt (x :: l) (OfNat.ofNat i) = byteAt l (i - 1) := by
  obtain ⟨k, rfl⟩ : ∃ k, i = k + 1 := ⟨i - 1, by have := Nat.AtLeastTwo.prop (n := i); omega⟩
  simp [byteAt, OfNat.ofNat]

@[simp] theorem byteAt_one (x : Byte) (l : List Byte) : byteAt (x :: l) 1 = byteAt l 0 := byteAt_succ x l 0

@[simp] theorem wordAt_succ (x : Byte) (l : List Byte) (i : Nat) : wordAt (x :: l) (i + 1) = wordAt l i := by
  simp [wordAt]

@[simp] theorem wordAt_one (x : Byte) (l : List Byte) : wordAt (x :: l) 1 = wordAt l 0 := wordAt_succ x l 0

@[simp] theorem wordAt_lit (x : Byte) (l : List Byte) (i : Nat) [i.AtLeastTwo] :
    wordAt (x :: l) (OfNat.ofNat i) = wordAt l (i - 1) := by
  obtain ⟨k, rfl⟩ : ∃ k, i = k + 1 := ⟨i - 1, by have := Nat.AtLeastTwo.prop (n := i); omega⟩
  exact wordAt_succ x l k

/-- R178: the two bytes of a 16-bit number, low byte first, are read back as the number. -/
@[simp] theorem wordAt_bytes (n : Nat) (l : List Byte) :
    wordAt (toByte n :: toByte (n / 256) :: l) 0 = BitVec.ofNat 16 n := by
  apply BitVec.eq_of_toNat_eq
  simp only [wordAt, byteAt_zero, byteAt_succ, toByte, BitVec.toNat_ofNat]
  omega

/-- R178: a 16-bit number at the front of a list of bytes. -/
theorem wordAt_wordBytes (n : Nat) (l : List Byte) : wordAt (wordBytes n ++ l) 0 = BitVec.ofNat 16 n := by
  simp [wordBytes]

theorem wordBytes_cons (n : Nat) : wordBytes n = [toByte n, toByte (n / 256)] := rfl

@[simp] theorem wordBytes_length (n : Nat) : (wordBytes n).length = 2 := rfl

/-! ## Handles -/

theorem Handle.value_lt (h : Handle) : h.value < 512 := by
  have := h.gen.isLt
  have := h.slot.isLt
  unfold Handle.value
  omega

/-- R2, R178: a handle's value names the handle. -/
@[simp] theorem Handle.ofWord_value (h : Handle) : Handle.ofWord (BitVec.ofNat 16 h.value) = some h := by
  have hv := h.value_lt
  obtain ⟨⟨g, hg⟩, ⟨k, hk⟩⟩ := h
  simp only [Handle.value] at hv
  simp only [Handle.ofWord, Handle.value, BitVec.toNat_ofNat]
  rw [Nat.mod_eq_of_lt (by omega), if_pos hv]
  simp only [Option.some.injEq, Handle.mk.injEq, Fin.ext_iff, Fin.ofNat]
  omega

/-- R178: a 16-bit field of 512 or more names no handle. -/
theorem Handle.ofWord_none {w : Word} (h : 512 ≤ w.toNat) : Handle.ofWord w = none := by
  simp [Handle.ofWord, h]

/-! ## Coded fields -/

@[simp] theorem toByte_toNat (n : Nat) (h : n < 256) : (toByte n).toNat = n := by
  simp [toByte, Nat.mod_eq_of_lt h]

@[simp] theorem Kind.ofByte_code (k : Kind) : Kind.ofByte (toByte k.code) = some k := by cases k <;> rfl
@[simp] theorem LapseAction.ofByte_code (l : LapseAction) : LapseAction.ofByte (toByte l.code) = some l := by
  cases l <;> rfl
@[simp] theorem SourceEvent.ofByte_code (e : SourceEvent) : SourceEvent.ofByte (toByte e.code) = some e := by
  cases e <;> rfl
@[simp] theorem CueAction.ofByte_code (a : CueAction) : CueAction.ofByte (toByte a.code) = some a := by
  cases a <;> rfl
@[simp] theorem Role.ofByte_code (r : Role) : Role.ofByte (toByte r.code) = some r := by cases r <;> rfl
@[simp] theorem Drive.ofByte_code (d : Drive) : Drive.ofByte (toByte d.code) = some d := by cases d <;> rfl
@[simp] theorem Pull.ofByte_code (p : Pull) : Pull.ofByte (toByte p.code) = some p := by cases p <;> rfl
@[simp] theorem PinLevel.ofByte_code (l : PinLevel) : PinLevel.ofByte (toByte l.code) = some l := by
  cases l <;> rfl
@[simp] theorem Policy.ofByte_code (p : Policy) : Policy.ofByte (toByte p.code) = some p := by cases p <;> rfl

@[simp] theorem bitOfByte_toNat (v : Bool) : bitOfByte (toByte v.toNat) = some v := by cases v <;> rfl

@[simp] theorem pinGroupOfByte_code (g : Option Group) : pinGroupOfByte (toByte (groupCode g)) = some g := by
  rcases g with _ | g
  · rfl
  · cases g <;> rfl

@[simp] theorem groupOfByte_code (g : Group) : groupOfByte (toByte (groupCode (some g))) = some g := by
  cases g <;> rfl

@[simp] theorem edgeOfByte_code (d : EdgeDir) : edgeOfByte (toByte (edgeCode d)) = some d := by cases d <;> rfl

@[simp] theorem baseOfByte_toByte (b : Base) : baseOfByte (toByte b.val) = some b := by revert b; decide
@[simp] theorem agentOfByte_toByte (a : Agent) : agentOfByte (toByte a.val) = some a := by revert a; decide
@[simp] theorem slotOfByte_toByte (i : Fin 32) : slotOfByte (toByte i.val) = some i := by revert i; decide
@[simp] theorem linkOfByte_toByte (i : Fin 64) : linkOfByte (toByte i.val) = some i := by revert i; decide
@[simp] theorem pinOfNat_toByte (p : Pin) : pinOfNat (toByte p.val).toNat = some p := by revert p; decide
@[simp] theorem pinOrNone_toByte (p : Pin) : pinOrNone (toByte p.val) = some (some p) := by revert p; decide
@[simp] theorem pinOrNone_none : pinOrNone 0xFF = some none := rfl

@[simp] theorem grantOfByte_toByte (p : Pin) (v : Bool) :
    grantOfByte (toByte (p.val + 128 * v.toNat)) = some (p, v) := by
  revert p v
  decide

@[simp] theorem noticesOfWord_set (n : NoticeSet) : noticesOfWord (BitVec.ofNat 16 n.toNat) = some n := by
  have h := n.isLt
  have h' : n.toNat % 2 ^ 16 = n.toNat := Nat.mod_eq_of_lt (by omega)
  simp only [noticesOfWord, BitVec.toNat_ofNat, h']
  rw [if_pos (by omega)]
  congr 1
  apply BitVec.eq_of_toNat_eq
  simp only [BitVec.toNat_setWidth, BitVec.toNat_ofNat, h']
  exact Nat.mod_eq_of_lt h

@[simp] theorem noticesOfWord_setWidth (n : NoticeSet) : noticesOfWord (n.setWidth 16) = some n := by
  rw [← BitVec.ofNat_toNat]
  exact noticesOfWord_set n

/-- R179: distinct requests have distinct codes. -/
theorem ReqCode.byte_injective {c d : ReqCode} (h : c.byte = d.byte) : c = d := by
  cases c <;> cases d <;> first | rfl | (exact absurd h (by decide))

/-- R179: every request is in the request table. -/
theorem ReqCode.mem_requestTable (c : ReqCode) : c ∈ requestTable := by
  cases c <;> decide

/-- R183: each agent's grant is read back from the grant set of a CONFIG entry, whatever lies in the bits below. -/
theorem testBit_grantSetCode (g : BitVec 4) (low : Fin 16) (a : Agent) (h : a ≠ 0) :
    (low.val + grantSetCode g).testBit (7 - a.val) = g.getLsbD a.val := by
  revert g low a
  decide

/-- R158 check 2: the codes that pass are those of the request table. -/
theorem knownCode_iff (b : Byte) : knownCode b = true ↔ ∃ c : ReqCode, c.byte = b := by
  simp only [knownCode, List.any_eq_true, beq_iff_eq]
  exact ⟨fun ⟨c, _, h⟩ => ⟨c, h⟩, fun ⟨c, h⟩ => ⟨c, c.mem_requestTable, h⟩⟩

end Sys2Proof.Machine
end

