-- ==== Sys2Proof/Laws/Engine.lean ====
section
/-! SUPPORT. What the arbiter, the checks and the carrying out of a request come to (chapter 9). -/

namespace Sys2Proof.Machine

variable {s : State} {a : Agent} {f : Frame} {c : ReqCode} {q : Byte} {p : List Byte}

/-- R156: a busy engine chooses nothing. -/
theorem arbitrate_busy {o : Operation} (h : s.engine.op = some o) : s.arbitrate = s := by
  simp [State.arbitrate, h]

/-- R156: an idle engine with nothing queued chooses nothing. -/
theorem arbitrate_nothing (h : ∀ b : Agent, s.ports[b].request.chosen = none) : s.arbitrate = s := by
  unfold State.arbitrate
  split
  · rfl
  · have hn : (searchOrder s.engine.lastServed).find? (fun b => (s.ports[b].request.chosen).isSome) = none :=
      List.find?_eq_none.2 fun b _ => by rw [h b]; simp
    rw [hn]

/-- R156: all that the arbiter can do: nothing, or, at an idle engine, choose a queued slot. -/
theorem arbitrate_cases (s : State) :
    s.arbitrate = s ∨ s.engine.op = none ∧ ∃ b slot sweep, s.ports[b].request.chosen = some (slot, sweep) ∧
      s.arbitrate = s.choose b slot sweep := by
  unfold State.arbitrate
  split
  · exact .inl rfl
  · rename_i hop
    split
    · rename_i b hb
      split
      · rename_i slot sweep hc
        exact .inr ⟨hop, b, slot, sweep, hc, rfl⟩
      · exact .inl rfl
    · exact .inl rfl

/-- R156: after the arbiter's choice an idle engine finds nothing queued. -/
theorem arbitrate_idle (h : s.arbitrate.engine.op = none) : ∀ b : Agent, s.ports[b].request.chosen = none := by
  intro b
  by_contra hb
  have hs : (s.ports[b].request.chosen).isSome := Option.isSome_iff_ne_none.2 hb
  have all : ∀ b l : Agent, b ∈ searchOrder l := by decide
  have hm : b ∈ searchOrder s.engine.lastServed := all b _
  unfold State.arbitrate at h
  split at h
  · rename_i o ho
    rw [ho] at h
    cases h
  · split at h
    · rename_i d hd
      split at h
      · simp [State.choose] at h
      · rename_i hn
        have := List.find?_some hd
        rw [hn] at this
        cases this
    · rename_i hn
      have := List.find?_eq_none.1 hn b hm
      exact this hs

/-- The request that the engine is serving: its agent's slot is ACTIVE, and its checks have not been made. -/
theorem serving_iff : s.serving = some (a, f) ↔
    s.engine.op = some { agent := a, sweep := false, work := .chosen } ∧ s.ports[a].request = .active f := by
  unfold State.serving
  constructor
  · intro h
    split at h
    · split at h
      · simp only [Option.some.injEq, Prod.mk.injEq] at h
        obtain ⟨rfl, rfl⟩ := h
        exact ⟨by assumption, by assumption⟩
      · cases h
    · cases h
  · rintro ⟨h, k⟩
    rw [h]
    dsimp only
    rw [k]

/-- The long operation in progress, and how far it has come. -/
theorem working_iff {w : Work} : s.working = some (a, f, w) ↔
    s.engine.op = some { agent := a, sweep := false, work := w } ∧ s.ports[a].request = .active f := by
  unfold State.working
  constructor
  · intro h
    split at h
    · split at h
      · simp only [Option.some.injEq, Prod.mk.injEq] at h
        obtain ⟨rfl, rfl, rfl⟩ := h
        exact ⟨by assumption, by assumption⟩
      · cases h
    · cases h
  · rintro ⟨h, k⟩
    rw [h]
    dsimp only
    rw [k]

/-- R162: the next visit of a long operation. -/
theorem setWork_of_op {b : Bool} {w w' : Work} (h : s.engine.op = some { agent := a, sweep := b, work := w }) :
    s.setWork w' = s.setOp (some { agent := a, sweep := b, work := w' }) := by
  simp [State.setWork, h]

/-- A check that must hold, and holds. -/
@[simp] theorem require_true (st : Status) : require st true = .ok () := rfl

/-- A check that must hold, and does not. -/
@[simp] theorem require_false (st : Status) : require st false = .error st := rfl

/-- A parameter in its range. -/
@[simp] theorem field_some {α : Type} (x : α) : field (some x) = .ok x := rfl

/-- A parameter out of its range. -/
@[simp] theorem field_none {α : Type} : field (none : Option α) = .error .badValue := rfl

/-- Checks in order: one that holds. -/
@[simp] theorem ok_bind {α β : Type} (x : α) (g : α → Except Status β) : (Except.ok x >>= g) = g x := rfl

/-- Checks in order: one that fails. -/
@[simp] theorem error_bind {α β : Type} (e : Status) (g : α → Except Status β) :
    ((Except.error e : Except Status α) >>= g) = .error e := rfl

/-- The answer of a request. -/
@[simp] theorem pure_ok {α : Type} (x : α) : (pure x : Except Status α) = .ok x := rfl

/-- R158: a request that the engine is serving goes through its checks and its body. -/
theorem carryOut_served (h : s.serving = some (a, f)) (hc : f.code = c.byte)
    (body : Agent → List Byte → State → Except Status Reply) :
    s.carryOut c body =
      s.conclude a f (match s.allow a c f.params with | .ok _ => body a f.params s | .error st => .error st) := by
  have hb : s.arbitrate = s := arbitrate_busy (serving_iff.1 h).1
  simp only [State.carryOut, hb, h, hc, if_true] <;> rfl

/-- R158 checks 1, 3 and 4: what they come to. -/
theorem allow_eq (s : State) (a : Agent) (c : ReqCode) (p : List Byte) :
    s.allow a c p =
      if c ≠ .openSession ∧ s.sessions[a].state ≠ .opened then .error .noSession
      else if c.lengthOk p = false then .error .badLength
      else if c.sup = true ∧ a ≠ 0 then .error .privilege
      else .ok () := by
  have key : ∀ x y z : Bool, (do
      require .noSession x
      require .badLength y
      require .privilege z : Except Status Unit) =
      if x = false then .error .noSession else if y = false then .error .badLength
      else if z = false then .error .privilege else .ok () := by
    intro x y z
    cases x <;> cases y <;> cases z <;> rfl
  unfold State.allow
  rw [key]
  simp

/-- R157, R158: a request that passes checks 1 to 4 is carried out by its body. -/
theorem carryOut_carries (h : s.carries a c q p) (hl : c.lengthOk p = true)
    (body : Agent → List Byte → State → Except Status Reply) :
    s.carryOut c body = s.conclude a { seq := q, code := c.byte, params := p } (body a p s) := by
  obtain ⟨h1, h2, h3⟩ := h
  rw [carryOut_served h1 rfl, allow_eq]
  rw [if_neg (by tauto), if_neg (by simp [hl]), if_neg (by tauto)]

/-- R161: an answered request. -/
@[simp] theorem conclude_answered (t : State) (d : List Byte) :
    s.conclude a { seq := q, code := c.byte, params := p } (.ok (.answered t d)) =
      t.post a { seq := q, code := c.byte, status := .ok, data := d } := rfl

/-- R162: a long operation begun. -/
@[simp] theorem conclude_begun (t : State) : s.conclude a f (.ok (.begun t)) = t := rfl

/-- R160: a refused request. -/
@[simp] theorem conclude_error (st : Status) :
    s.conclude a { seq := q, code := c.byte, params := p } (.error st) =
      s.post a { seq := q, code := c.byte, status := st, data := [] } := rfl

/-- R2: a handle that names a record. -/
theorem record?_eq_some {h : Handle} {r : Record} :
    s.record? h = some r ↔ s.slots[h.slot].gen = h.gen ∧ s.slots[h.slot].record = some r := by
  unfold State.record?
  split <;> simp_all

/-- R158 check 6: a current handle. -/
theorem current_some {h : Handle} {r : Record} (hr : s.record? h = some r) : s.current h = .ok r := by
  simp [State.current, hr]

/-- R158 check 6: a stale handle. -/
theorem current_none {h : Handle} (hr : s.record? h = none) : s.current h = .error .staleHandle := by
  simp [State.current, hr]

/-- R158 checks 6 and 7, passed. -/
theorem ownRecord_ok {h : Handle} {r : Record} (hr : s.record? h = some r) (ho : a = 0 ∨ r.owner = a) :
    s.ownRecord a h = .ok r := by
  have : ownedBy a r = true := by
    rcases ho with rfl | ho
    · simp [ownedBy]
    · simp [ownedBy, ho]
  simp [State.ownRecord, current_some hr, this]

/-- R158 check 6, failed. -/
theorem ownRecord_stale {h : Handle} (hr : s.record? h = none) : s.ownRecord a h = .error .staleHandle := by
  simp [State.ownRecord, current_none hr]

/-- R158 check 7, failed. -/
theorem ownRecord_other {h : Handle} {r : Record} (hr : s.record? h = some r) (h0 : a ≠ 0) (ho : r.owner ≠ a) :
    s.ownRecord a h = .error .notOwner := by
  have : ownedBy a r = false := by simp [ownedBy, h0, ho]
  simp [State.ownRecord, current_some hr, this]

end Sys2Proof.Machine
end

