-- ==== Sys2Proof/Laws/Frames.lean ====
section
/-! SUPPORT. What each shared operation of Ops.lean leaves alone, and what it does to the entry it changes. -/

namespace Sys2Proof.Machine

variable (s : State)

/-! ## The arbiter and the posting of a response (R156, R161) -/

/-- R156: the arbiter's choice changes request slots and the engine alone. -/
theorem arbitrate_frame : s.arbitrate = { s with ports := s.arbitrate.ports, engine := s.arbitrate.engine } := by
  rcases arbitrate_cases s with h | ⟨_, b, slot, sweep, _, h⟩
  · rw [h]
  · rw [h]
    rfl

@[simp] theorem arbitrate_slots : s.arbitrate.slots = s.slots := by rw [arbitrate_frame]
@[simp] theorem arbitrate_bases : s.arbitrate.bases = s.bases := by rw [arbitrate_frame]
@[simp] theorem arbitrate_links : s.arbitrate.links = s.links := by rw [arbitrate_frame]
@[simp] theorem arbitrate_pins : s.arbitrate.pins = s.pins := by rw [arbitrate_frame]
@[simp] theorem arbitrate_groupA : s.arbitrate.groupA = s.groupA := by rw [arbitrate_frame]
@[simp] theorem arbitrate_groupB : s.arbitrate.groupB = s.groupB := by rw [arbitrate_frame]
@[simp] theorem arbitrate_sessions : s.arbitrate.sessions = s.sessions := by rw [arbitrate_frame]
@[simp] theorem arbitrate_resetn : s.arbitrate.resetn = s.resetn := by rw [arbitrate_frame]
@[simp] theorem arbitrate_csnLow : s.arbitrate.csnLow = s.csnLow := by rw [arbitrate_frame]
@[simp] theorem arbitrate_receiver : s.arbitrate.receiver = s.receiver := by rw [arbitrate_frame]
@[simp] theorem arbitrate_sdo : s.arbitrate.sdo = s.sdo := by rw [arbitrate_frame]
@[simp] theorem arbitrate_sdoBits : s.arbitrate.sdoBits = s.sdoBits := by rw [arbitrate_frame]
@[simp] theorem arbitrate_draws : s.arbitrate.draws = s.draws := by rw [arbitrate_frame]
@[simp] theorem arbitrate_pending : s.arbitrate.pending = s.pending := by rw [arbitrate_frame]
@[simp] theorem arbitrate_cause : s.arbitrate.engine.cause = s.engine.cause := by
  rcases arbitrate_cases s with h | ⟨_, b, slot, sweep, _, h⟩ <;> rw [h] <;> rfl

/-- R156: of the port of any agent the arbiter's choice changes the request slot alone. -/
theorem arbitrate_port (b : Agent) :
    s.arbitrate.ports[b] = { s.ports[b] with request := s.arbitrate.ports[b].request } := by
  rcases arbitrate_cases s with h | ⟨_, d, slot, sweep, _, h⟩
  · rw [h]
  · rw [h]
    simp only [State.choose, setPort_ports, put_get_fin]
    split
    · rename_i hbd
      rw [hbd]
    · rfl

@[simp] theorem post_slots (a : Agent) (r : Response) : (s.post a r).slots = s.slots := by simp [State.post, State.posted]
@[simp] theorem post_bases (a : Agent) (r : Response) : (s.post a r).bases = s.bases := by simp [State.post, State.posted]
@[simp] theorem post_links (a : Agent) (r : Response) : (s.post a r).links = s.links := by simp [State.post, State.posted]
@[simp] theorem post_pins (a : Agent) (r : Response) : (s.post a r).pins = s.pins := by simp [State.post, State.posted]
@[simp] theorem post_groupA (a : Agent) (r : Response) : (s.post a r).groupA = s.groupA := by
  simp [State.post, State.posted]
@[simp] theorem post_groupB (a : Agent) (r : Response) : (s.post a r).groupB = s.groupB := by
  simp [State.post, State.posted]
@[simp] theorem post_resetn (a : Agent) (r : Response) : (s.post a r).resetn = s.resetn := by
  simp [State.post, State.posted]
@[simp] theorem post_csnLow (a : Agent) (r : Response) : (s.post a r).csnLow = s.csnLow := by
  simp [State.post, State.posted]
@[simp] theorem post_receiver (a : Agent) (r : Response) : (s.post a r).receiver = s.receiver := by
  simp [State.post, State.posted]
@[simp] theorem post_sdo (a : Agent) (r : Response) : (s.post a r).sdo = s.sdo := by simp [State.post, State.posted]
@[simp] theorem post_sdoBits (a : Agent) (r : Response) : (s.post a r).sdoBits = s.sdoBits := by simp [State.post, State.posted]
@[simp] theorem post_draws (a : Agent) (r : Response) : (s.post a r).draws = s.draws := by
  simp [State.post, State.posted]
@[simp] theorem post_pending (a : Agent) (r : Response) : (s.post a r).pending = s.pending := by
  simp [State.post, State.posted]

/-- R155: an arrival changes ports and the engine alone. -/
theorem arrive_frame (a : Agent) (f : Frame) :
    s.arrive a f = { s with ports := (s.arrive a f).ports, engine := (s.arrive a f).engine } := by
  unfold State.arrive
  dsimp only
  split
  · rw [arbitrate_frame]
    rfl
  · rfl

/-- R133, R164: a discard changes the agent's port alone. -/
theorem discard_frame (a : Agent) (st : Status) :
    s.discard a st = { s with ports := put s.ports a (s.discard a st).ports[a] } := by
  unfold State.discard
  dsimp only
  split
  · simp only [setPort_ports, put_get_fin, if_true]
    rfl
  · simp only [setPort_ports, put_get_fin, if_true]
    rfl
  · have : put s.ports a s.ports[a] = s.ports := table_ext fun j => by
      rw [put_get_fin]
      split
      · rename_i h
        rw [h]
      · rfl
    rw [this]

/-- R162: the work of the operation in progress is the engine's alone. -/
theorem setWork_frame (w : Work) : s.setWork w = { s with engine := (s.setWork w).engine } := by
  unfold State.setWork
  split <;> rfl

/-! ## Cues and walks (R79 to R82) -/

/-- R80, R81: what a delivery does: nothing to a stale target; a current one's pending cue is the delivered one, and
CUE_LOST is raised if one was pending. -/
theorem deliver_cases (h : Handle) (c : Cue) :
    (s.record? h = none ∧ s.deliver h c = s) ∨
      ∃ r, s.record? h = some r ∧ s.deliver h c = s.setRecord h.slot
        (if r.cue.isSome then ({ r with cue := some c } : Record).offer .cueLost else { r with cue := some c }) := by
  unfold State.deliver
  cases hr : s.record? h with
  | none => exact .inl ⟨rfl, rfl⟩
  | some r => exact .inr ⟨r, rfl, rfl⟩

/-- R79: a delivery changes the record table alone. -/
theorem deliver_frame (h : Handle) (c : Cue) : s.deliver h c = { s with slots := (s.deliver h c).slots } := by
  rcases deliver_cases s h c with ⟨_, e⟩ | ⟨r, _, e⟩ <;> rw [e] <;> rfl

/-- R79: what one link of a walk does. -/
theorem walkLink_cases (ev : SourceEvent) (i : LinkIx) :
    s.walkLink ev i = s ∨ ∃ l, s.links[i] = some l ∧ l.enabled = true ∧ l.event.matches ev = true ∧
      s.walkLink ev i = s.deliver l.target { action := l.action, link := i } := by
  unfold State.walkLink
  split
  · rename_i l hl
    split
    · rename_i h
      rw [Bool.and_eq_true] at h
      exact .inr ⟨l, hl, h.1, h.2, rfl⟩
    · exact .inl rfl
  · exact .inl rfl

/-- R79: one link of a walk changes the record table alone. -/
theorem walkLink_frame (ev : SourceEvent) (i : LinkIx) :
    s.walkLink ev i = { s with slots := (s.walkLink ev i).slots } := by
  rcases walkLink_cases s ev i with h | ⟨l, _, _, _, h⟩
  · rw [h]
  · rw [h]
    exact deliver_frame s _ _

/-- R79: a walk changes the record table alone. -/
theorem walk_frame (src : LinkSource) (ev : SourceEvent) :
    s.walk src ev = { s with slots := (s.walk src ev).slots } := by
  unfold State.walk
  generalize s.linkList src = l
  induction l generalizing s with
  | nil => rfl
  | cons i l ih =>
    rw [List.foldl_cons]
    have h := walkLink_frame s ev i
    revert h
    generalize s.walkLink ev i = t
    intro h
    have := ih t
    revert this
    generalize List.foldl (fun s i => s.walkLink ev i) t l = u
    intro hu
    rw [hu, h]

/-- R82: the walks of several events change the record table alone. -/
theorem walkEvents_frame (h : Handle) (evs : List SourceEvent) :
    s.walkEvents h evs = { s with slots := (s.walkEvents h evs).slots } := by
  unfold State.walkEvents
  induction evs generalizing s with
  | nil => rfl
  | cons ev evs ih =>
    rw [List.foldl_cons]
    have h := walk_frame s (.record h) ev
    revert h
    generalize s.walk (.record h) ev = t
    intro h
    have := ih t
    revert this
    generalize List.foldl _ t evs = u
    intro hu
    rw [hu, h]

/-! ## A change to every record at once (R35, R120, R122) -/

/-- A change to every record keeps every slot's generation and every EMPTY slot. -/
theorem mapRecords_slot (f : Record → Record) (i : SlotIx) :
    (s.mapRecords f).slots[i] = { gen := s.slots[i].gen, record := s.slots[i].record.map f } := by
  simp only [mapRecords_slots, tab_get_fin]

/-- A change of one record keeps every slot's generation. -/
theorem setRecord_gen (i j : SlotIx) (r : Record) : (s.setRecord i r).slots[j].gen = s.slots[j].gen := by
  simp only [setRecord_slots, put_get_fin]
  split
  · rename_i h
    rw [h]
  · rfl

/-- R2: the record of a handle, after a change of the record of a current handle. -/
theorem record?_setRecord (h k : Handle) (r : Record) (hk : s.slots[h.slot].gen = h.gen) :
    (s.setRecord h.slot r).record? k = if k = h then some r else s.record? k := by
  unfold State.record?
  rw [setRecord_gen]
  simp only [setRecord_slots, put_get_fin]
  rcases h with ⟨g, i⟩
  rcases k with ⟨g', j⟩
  dsimp only at hk ⊢
  by_cases hji : j = i
  · subst hji
    by_cases hg : s.slots[j].gen = g'
    · have hgg : g' = g := hg.symm.trans hk
      subst hgg
      simp only [hg, if_true]
    · rw [if_neg hg, if_neg hg, if_neg]
      intro e
      injection e with e1 e2
      exact hg (hk.trans e1.symm)
  · rw [if_neg hji, if_neg (c := ({ gen := g', slot := j } : Handle) = { gen := g, slot := i })]
    intro e
    injection e with e1 e2
    exact hji e2

/-! ## Retirement (R15, R16) -/

/-- R15: the first step of a retirement. -/
theorem emptySlot_eq {i : SlotIx} {r : Record} (h : s.slots[i].record = some r) :
    s.emptySlot i = { s with
      slots := put s.slots i { gen := s.slots[i].gen + 1, record := none }
      pins := match r.pin with | some p => put s.pins p { s.pins[p] with claim := none } | none => s.pins } := by
  unfold State.emptySlot
  rw [h]
  dsimp only
  cases r.pin <;> rfl

/-- R70: a source's list replaced changes the record table and the pin table alone. -/
theorem setLinkList_frame (src : LinkSource) (l : List LinkIx) :
    s.setLinkList src l = { s with slots := (s.setLinkList src l).slots, pins := (s.setLinkList src l).pins } := by
  unfold State.setLinkList
  cases src with
  | record h => dsimp only; split <;> rfl
  | pin p => rfl

/-- R70: a link freed changes the record table, the pin table and its entry alone. -/
theorem freeLink_frame (i : LinkIx) :
    s.freeLink i = { s with
      slots := (s.freeLink i).slots, pins := (s.freeLink i).pins, links := (s.freeLink i).links } := by
  unfold State.freeLink
  split
  · rename_i l _
    rw [setLinkList_frame]
    rfl
  · rfl

/-- R70: the entries of the pool after a link is freed. -/
theorem freeLink_links (i k : LinkIx) : (s.freeLink i).links[k] = if k = i then none else s.links[k] := by
  unfold State.freeLink
  split
  · rename_i l hl
    have : (s.setLinkList l.source ((s.linkList l.source).filter (· != i))).links = s.links := by
      rw [setLinkList_frame]
    simp only [setLink_links, this, put_get_fin]
  · rename_i hl
    split
    · rename_i hk
      rw [hk]
      exact hl
    · rfl

/-- R16: an entry is freed exactly if it names the handle. -/
theorem freeIfNames_links (h : Handle) (i k : LinkIx) :
    (s.freeIfNames h i).links[k] = if k = i ∧ (s.links[i]).any (·.names h) = true then none else s.links[k] := by
  unfold State.freeIfNames
  split
  · rename_i l hl
    rw [hl]
    by_cases hn : l.names h = true
    · rw [if_pos hn, freeLink_links]
      simp [hn]
    · rw [if_neg hn]
      simp [hn]
  · rename_i hl
    rw [hl]
    simp

/-- R16: freeing what names a handle changes the record table, the pin table and the pool alone. -/
theorem freeIfNames_frame (h : Handle) (i : LinkIx) :
    s.freeIfNames h i = { s with
      slots := (s.freeIfNames h i).slots, pins := (s.freeIfNames h i).pins, links := (s.freeIfNames h i).links } := by
  unfold State.freeIfNames
  split
  · rename_i l _
    split
    · exact freeLink_frame s i
    · rfl
  · rfl

/-! ## A port that is not receiving (R168, R169) -/

/-- R169: a port that is not receiving ignores every byte. -/
theorem portBytes_ignored (h : s.receiver = none) (bytes : List Byte) : bytes.foldl State.portByte s = s := by
  induction bytes with
  | nil => rfl
  | cons b bytes ih =>
    have hb : s.portByte b = s := by
      unfold State.portByte
      rw [h]
    rw [List.foldl_cons, hb, ih]

/-- R168, R169: when CSn rises over a port that is not receiving, the CSn input alone changes. -/
theorem csnRise_ignored (h : s.receiver = none) (bits : Nat) : s.csnRise bits = { s with csnLow := false } := by
  simp only [State.csnRise, h]

/-- R169: the rest of a transaction that the port ignores belongs to no row before others. -/
theorem transferType_ignored (h : s.receiver = none) {x : Transfer} (hx : x.opens = false) :
    s.transferType x = none := by
  unfold State.transferType
  rw [hx, h]
  rfl

end Sys2Proof.Machine
end

