-- ==== Sys2Proof/Laws/Waveform.lean ====
section
/-! SUPPORT. What each operation of Waveform.lean leaves alone in a record. -/

namespace Sys2Proof.Machine

variable (r : Record)

/-- R43 to R49: a compare changes the output, the phase, the state and the counter alone. -/
theorem compare_frame : r.compare.1 = { r with
    output := r.compare.1.output, phase := r.compare.1.phase, state := r.compare.1.state
    counter := r.compare.1.counter } := by
  unfold Record.compare
  repeat' split
  all_goals rfl

/-- R41: a start changes the state, the counter, the phase, the output and the group-wait alone. -/
theorem begin_frame : r.begin.1 = { r with
    state := r.begin.1.state, counter := r.begin.1.counter, phase := r.begin.1.phase
    output := r.begin.1.output, groupWait := none } := by
  have h := compare_frame { r with
    state := .running, counter := 0, phase := .waitA, output := r.startLevel, groupWait := none }
  exact h

/-- R61: a commit changes the live timing and the staged copy alone. -/
theorem commit_frame : r.commit.1 = { r with timing := r.staged.getD r.timing, staged := none } := by
  unfold Record.commit
  cases h : r.staged with
  | some t => rfl
  | none => cases r; cases h; rfl

/-- R61: a commit raises COMMITTED exactly if a staged copy was present. -/
theorem commit_occurs : r.commit.2 = if r.staged.isSome then [.committed] else [] := by
  unfold Record.commit
  cases r.staged <;> rfl

/-- R123: a payment changes the held mark alone. -/
theorem payRelease_frame : r.payRelease.1 = { r with held := if r.held = .owed then .clear else r.held } := by
  unfold Record.payRelease
  cases h : r.held <;> (cases r; cases h; rfl)

/-- R123: a payment raises RELEASED exactly if a release was owed. -/
theorem payRelease_occurs : r.payRelease.2 = if r.held = .owed then [.released] else [] := by
  unfold Record.payRelease
  cases r.held <;> rfl

/-- R38, R39: a crossing is the boundary work and then the compare at counter 0. -/
theorem cross_eq : r.cross.1 = ({ r with
    counter := 0, timing := r.staged.getD r.timing, staged := none
    held := if r.held = .owed then .clear else r.held } : Record).compare.1 := by
  show (({ r with counter := 0 } : Record).commit.1.payRelease.1).compare.1 = _
  rw [payRelease_frame, commit_frame]

/-- R38, R39: a crossing changes the timing, the staged copy, the held mark, the output, the phase, the state and the
counter alone. -/
theorem cross_frame : r.cross.1 = { r with
    timing := r.staged.getD r.timing, staged := none, held := if r.held = .owed then .clear else r.held
    output := r.cross.1.output, phase := r.cross.1.phase, state := r.cross.1.state
    counter := r.cross.1.counter } := by
  rw [cross_eq]
  exact compare_frame _

/-- R54: a stop of a record that is not IDLE. -/
theorem toIdle_eq : r.toIdle.1 = { r with
    timing := r.staged.getD r.timing, staged := none, held := if r.held = .owed then .clear else r.held
    state := .idle, counter := 0, phase := .waitA, groupWait := none, output := r.restLevel } := by
  have e : r.commit.1.payRelease.1 = { r with
      timing := r.staged.getD r.timing, staged := none, held := if r.held = .owed then .clear else r.held } := by
    rw [payRelease_frame, commit_frame]
  show ({ r.commit.1.payRelease.1 with
    state := .idle, counter := 0, phase := .waitA, output := r.commit.1.payRelease.1.restLevel
    groupWait := none } : Record) = _
  rw [e]
  rfl

end Sys2Proof.Machine
end

