-- ==== Sys2Proof/Tests/Slice0.lean ====
section
/-! SUPPORT. Small checks of the model against the manual's own examples, and for each statement of Obligations.lean
that has hypotheses, states and operands that meet them, clause by clause. -/

namespace Sys2Proof.Tests

open Sys2Proof.Machine

/-! ## States to test on -/

/-- A record of agent 1 on TB0 without a pin: period 5, mark A 2, mark B 4. -/
def testRecord (k : Kind) (st : RecState) : Record where
  owner := 1
  orphan := false
  tag := 7
  kind := k
  state := st
  base := 0
  timing := { period := 5, markA := 2, markB := 4 }
  level := false
  invert := false
  rearm := false
  pin := none
  lapse := .keep
  counter := 0
  phase := .waitA
  output := false
  staged := none
  cue := none
  held := .clear
  groupWait := none
  enableSet := 0x1F1
  pendingSet := 0
  againSet := 0
  outgoing := []

/-- The handle of slot 3, generation 0. -/
def h3 : Handle where
  gen := 0
  slot := 3

/-- The part with one record, in slot 3. -/
def world (r : Record) : State :=
  State.reset.setRecord 3 r

/-- The part with a record in every slot. -/
def fullTable : State :=
  { State.reset with slots := tab fun _ => { gen := 0, record := some (testRecord .pwm .idle) } }

/-- A disabled link from GP5 to slot 3. -/
def testLink : Link where
  source := .pin 5
  event := .rise
  target := h3
  action := .start
  enabled := false

/-- A state with that link in every entry of the pool. -/
def fullPool (s : State) : State :=
  { s with links := tab fun _ => some testLink }

/-- A state with a pin's role and grants replaced. -/
def withRole (s : State) (p : Pin) (role : Role) (grants : BitVec 4) (claim : Option Handle) : State :=
  s.setPin p { s.pins[p] with config := { s.pins[p].config with role := role }, grants := grants, claim := claim }

/-- The engine at some work of agent `a`'s request, its session OPEN. -/
def atWork (s : State) (a : Agent) (w : Work) (f : Frame) : State :=
  { s with
    ports := put s.ports a { s.ports[a] with request := .active f }
    sessions := put s.sessions a { s.sessions[a] with state := .opened }
    engine := { s.engine with op := some { agent := a, sweep := false, work := w } } }

/-- The engine at some work of agent `a`'s sweep. -/
def atSweep (s : State) (a : Agent) (w : Work) : State :=
  { s with
    ports := put s.ports a { s.ports[a] with request := .sweepActive }
    engine := { s.engine with op := some { agent := a, sweep := true, work := w } } }

/-- The engine serving agent `a`'s request of code `c`, its session OPEN. -/
def serve (s : State) (a : Agent) (c : ReqCode) (p : List Byte) : State :=
  atWork s a .chosen { seq := 5, code := c.byte, params := p }

/-- `atWork` puts the work in progress. -/
theorem atWork_working (s : State) (a : Agent) (w : Work) (f : Frame) : (atWork s a w f).working = some (a, f, w) := by
  rw [working_iff]
  exact ⟨rfl, by simp only [atWork, put_get_fin, if_true]⟩

/-- What `serve` puts before the engine is as `State.carries` says. -/
theorem serve_carries (s : State) (a : Agent) (c : ReqCode) (p : List Byte) (h : c.sup = true → a = 0) :
    (serve s a c p).carries a c 5 p := by
  refine ⟨?_, .inr ?_, h⟩
  · rw [serving_iff]
    exact ⟨rfl, by simp only [serve, atWork, put_get_fin, if_true]⟩
  · simp only [serve, atWork, put_get_fin, if_true]

/-- Parameters that the engine may be serving, each with a property. -/
theorem served_all (a : Agent) (c : ReqCode) (h : c.sup = true → a = 0) (P : List Byte → Prop)
    (l : List (List Byte)) (hl : ∀ p ∈ l, P p) : ∀ p ∈ l, (serve State.reset a c p).carries a c 5 p ∧ P p :=
  fun p hp => ⟨serve_carries _ _ _ _ h, hl p hp⟩

/-! ## Well-formed commands -/

/-- R170: header 0x60 is a FETCH, so no REQUEST_TRANSACTION opens with it. -/
theorem test_request_header : Instr.wellFormed (.requestTransaction ⟨true, [0x60], 0, true⟩) = false := by decide

/-- R170: header 0x50 is a REQUEST, so no FETCH_TRANSACTION opens with it. -/
theorem test_fetch_header : Instr.wellFormed (.fetchTransaction ⟨true, [0x50], 0, true⟩) = false := by decide

/-- R170: header 0x60 is a FETCH, so no STATUS_TRANSACTION opens with it. -/
theorem test_status_header : Instr.wellFormed (.statusTransaction ⟨true, [0x60], 0, true⟩) = false := by decide

/-- R170: header 0x30 is a STATUS, so no HEADER_TYPE_0_TRANSACTION opens with it. -/
theorem test_type0_header : Instr.wellFormed (.headerType0Transaction ⟨true, [0x30], 0, true⟩) = false := by decide

/-- R168: a byte is left incomplete by the rise of CSn alone. -/
theorem test_partial_byte : Instr.wellFormed (.requestTransaction ⟨true, [0x50], 3, false⟩) = false := by decide

/-- 10.1: a REQUEST of agent 1 is 0x50, a FETCH of agent 1 is 0x60, a STATUS of agent 0 is 0x30. -/
theorem test_headers :
    Instr.wellFormed (.requestTransaction ⟨true, [0x50, 0], 0, true⟩) = true ∧
    Instr.wellFormed (.fetchTransaction ⟨true, [0x60, 0], 0, true⟩) = true ∧
    Instr.wellFormed (.statusTransaction ⟨true, [0x30, 0], 0, true⟩) = true ∧ headerAgent 0x60 = 1 := by decide

/-- The table gives no row a bit, so no word spells a command. -/
theorem test_no_word : decodeTableWord 8 0x10 = none := by decide

/-! ## The manual's own values -/

/-- R174: the CRC-8 of four zero bytes is 0xD1. -/
theorem test_crc : crc8 [0, 0, 0, 0] = 0xD1 := by decide +kernel

/-- R176: the empty frame. -/
theorem test_empty_frame : emptyFrame = [0, 0, 0, 0, 0xD1] := by decide +kernel

/-- 0.4: slot 5 gen 2 is the handle 69. -/
theorem test_handle : (⟨2, 5⟩ : Handle).value = 69 := by decide

/-- 10.5.1: the response of a CREATE that made handle 35. -/
theorem test_create_response :
    (Response.bytes { seq := 0x21, code := 0x10, status := .ok, data := wordBytes 35 }).take 6 =
      [0x21, 0x10, 0x00, 0x02, 0x23, 0x00] := by decide

/-- A CREATE of agent 1 that makes a LEVEL record without a pin, with tag 7 and KEEP. -/
def createParams : List Byte := [0, 0, 0, 0, 0, 0, 0, 0, 0, 0, 0, 0xFF, 7, 0]

/-- R3, R12: it takes slot 0, the lowest EMPTY one, and its response is the handle 0. -/
theorem test_create_lowest_slot :
    (match exec .create (serve State.reset 1 .create createParams) with
      | .next t => t.slots[(0 : SlotIx)].record.map (fun r => (r.owner, r.tag, r.state)) == some (1, 7, .idle) &&
          t.ports[(1 : Agent)].response == some ⟨5, 0x10, .ok, [0, 0]⟩
      | _ => false) = true := by decide

/-- 9.4.1: the status of a request of agent 2, where slot 9 gen 1 holds a record of agent 1. -/
def statusOf (c : ReqCode) (i : Instr) (p : List Byte) : Option Status :=
  match exec i (serve { State.reset with
      slots := put State.reset.slots 9 { gen := 1, record := some (testRecord .pwm .idle) } } 2 c p) with
  | .next t => t.ports[(2 : Agent)].response.map (·.status)
  | _ => none

/-- 9.4.1: CONFIG_PIN one byte short, CONFIG_PIN, and RETIRE of 600, 10, 9 and 41 by agent 2. -/
theorem test_checks_in_turn :
    statusOf .configPin .configPin [0, 0, 0, 0, 0, 0] = some .badLength ∧
    statusOf .configPin .configPin [0, 0, 0, 0, 0, 0, 0] = some .privilege ∧
    statusOf .retire .retire [0x58, 2] = some .badValue ∧ statusOf .retire .retire [10, 0] = some .staleHandle ∧
    statusOf .retire .retire [9, 0] = some .staleHandle ∧ statusOf .retire .retire [41, 0] = some .notOwner := by
  decide

/-- 9.4.1: READ_RECORD of 41 by agent 2. -/
theorem test_read_record_open_to_all : statusOf .readRecord .readRecord [41, 0] = some .ok := by decide

/-- What a step of a command leaves in slot 3. -/
def slot3 (i : Instr) (s : State) : Option Record :=
  match step { s with pending := [i] } with
  | .next t => t.slots[(3 : SlotIx)].record
  | _ => none

/-- 2.7.1: a STOP of an ARMED PULSE_ONCE record that holds a START cue. -/
theorem test_stop_discards_cue :
    ((slot3 .stop (serve (world { testRecord .pulseOnce .armed with cue := some ⟨.start, 0⟩ }) 1 .stop [3, 0])).map
      fun r => (r.state, r.cue, r.counter, r.output)) = some (.idle, none, 0, false) := by decide

/-- 2.7.1: a tick taken by the same record first. -/
theorem test_tick_takes_cue :
    (({ testRecord .pulseOnce .armed with cue := some ⟨.start, 0⟩ } : Record).takeTick false).1.state = .running := by
  decide

/-- R44: with mark A 0 the match is made at the start compare. -/
theorem test_set_at_zero :
    let r := { testRecord .setAt .idle with timing := { period := 5, markA := 0, markB := 0 } }
    r.begin.1.output = true ∧ r.begin.1.state = .done ∧ r.begin.2 = [.started, .markA, .done] := by decide

/-- R47: A = B pulses last one full period. -/
theorem test_pulse_equal_marks :
    let r := { testRecord .pulseOnce .idle with timing := { period := 3, markA := 1, markB := 1 } }
    let run (n : Nat) := (n.repeat (fun y : Record => (y.takeTick false).1) r.begin.1).output
    (List.range 6).map run = [false, true, true, true, false, false] := by decide

/-- 2.2.1: SET_DIVISOR 25 in an interval of 100 acts from the next tick. -/
theorem test_divisor_of_next_interval :
    let b : TimeBase := { TimeBase.initial with running := true, divisor := 25, interval := some ⟨99, 100⟩ }
    b.tickDue = true ∧ b.counted.interval = some ⟨0, 25⟩ := by decide

/-- 9.3.1 steps 4 and 7: the arbiter searches from the agent after the last-served one. -/
theorem test_search_order : searchOrder 1 = [2, 3, 0, 1] := by decide

/-- R183: byte 1 of the CONFIG entry of a reset pin granted to agent 1 alone, and to agents 2 and 3: idle level LOW in
bits 1-0, safe action FLOAT (2) in bits 3-2, and agents 1, 2 and 3 in bits 6, 5 and 4. -/
theorem test_config_entry_grants :
    (withRole State.reset 0 .off 2 none).configEntry 0 = [0x00, 0x48] ∧
      (withRole State.reset 0 .off 12 none).configEntry 0 = [0x00, 0x38] := by decide

/-- R178: the codes of pull are 0 to 2. -/
theorem test_pull_codes : Pull.ofByte 2 = some .down ∧ Pull.ofByte 3 = none := by decide

/-- R131: whole lease units rounded down; a lease of one unit stands at margin 1 until its first period has passed. -/
theorem test_margin :
    Session.margin ⟨.opened, 1, 65536, false⟩ = 1 ∧ Session.margin ⟨.opened, 1, 65535, false⟩ = 0 ∧
      Session.margin ⟨.opened, 0, 0, false⟩ = 0 := by decide

/-- R168: of a STATUS of agent 0 cut after three edges of byte 1, the host has read 0x00 and three bits of the status
byte, MSB first; SDO is driven within the transaction and not after it. -/
theorem test_cut_status :
    let s := State.reset.setPort 0 { Port.initial with frameError := true }
    let run (bits : Fin 8) (closes : Bool) := exec (.statusTransaction ⟨true, [0x30], bits, closes⟩) s
    (match run 0 false, run 3 true with
      | .next t, .next u =>
        t.sdoByte == some 0x40 && u.sdo == [0] && u.sdoBits == [false, true, false] && u.sdoByte == none
      | _, _ => false) = true := by decide

/-- R169: the end of a transaction that RESETn cut, given as any row, lets the port take the next one. -/
theorem test_transaction_after_reset :
    (match exec (.statusTransaction ⟨false, [0x50, 0x11], 2, true⟩) { State.reset with csnLow := true } with
      | .next t => t.csnLow == false && canOccur (.fetchTransaction ⟨true, [0x60], 0, true⟩) t
      | _ => false) = true := by decide

/-! ## Witnesses: the step, the clock, the resets and the port -/

/-- A part in which TB0 is within an interval, TB1 at the end of one and TB2 STOPPED; agent 1's lease timer is about to
expire and agent 2's is not; GP1's filtered level is about to follow its observed one; and INH_A was low at the last
sample, though its line is deasserted. -/
def clockState : State :=
  { State.reset with
    bases := put (put State.reset.bases 0 { TimeBase.initial with running := true, interval := some ⟨0, 2⟩ }) 1
      { TimeBase.initial with running := true, interval := some ⟨1, 2⟩ }
    sessions := put (put State.reset.sessions 1 { Session.initial with state := .opened, lease := 1, timer := 1 }) 2
      { Session.initial with state := .opened, lease := 255, timer := 2 }
    pins := put State.reset.pins 1 { PinEntry.initial with board := some true, observed := true, narrow := true }
    groupA := { InhibitGroup.initial with input := true, narrow := true } }

theorem witness_EmptyQueueIsOneClockPeriod :
    clockState.pending = [] ∧ clockState.resetn = .high ∧
    (clockState.bases[(0 : Base)].running = true ∧ clockState.bases[(0 : Base)].interval = some ⟨0, 2⟩ ∧ 0 + 1 < 2) ∧
    (clockState.bases[(1 : Base)].running = true ∧ clockState.bases[(1 : Base)].interval = some ⟨1, 2⟩ ∧ 2 ≤ 1 + 1) ∧
    clockState.bases[(2 : Base)].interval = none ∧
    clockState.timerRuns 1 = true ∧ clockState.timerRuns 2 = true ∧ clockState.timerRuns 3 = false ∧
    clockState.pins[(1 : Pin)].narrow = true ∧ clockState.levelAt 1 ≠ clockState.pins[(1 : Pin)].filtered ∧
    clockState.pins[(2 : Pin)].narrow = false ∧
    (clockState.group .a).narrow = true ∧ (clockState.group .b).narrow = false := by decide

/-- Whatever the free level of INH_B at the next sample, it differs from one of the two line levels. -/
theorem witness_EmptyQueueIsOneClockPeriod_line :
    let low := clockState.inhibitAt .b
    let s := clockState.setGroup .b { InhibitGroup.initial with line := !low, input := low, narrow := true }
    s.pending = [] ∧ s.resetn = .high ∧ (s.group .b).narrow = true ∧ s.inhibitAt .b ≠ (s.group .b).line :=
  ⟨rfl, rfl, rfl, by
    change clockState.inhibitAt .b ≠ !(clockState.inhibitAt .b)
    cases clockState.inhibitAt .b <;> decide⟩

/-- R115: a change of INH_A that a second sample finds again becomes an assertion; one that no sample found before
becomes none, whatever this sample finds. -/
theorem test_inhibit_filter :
    (clockState.inhibitAt .a = true → Instr.assertion .a ∈ clockState.due) ∧
      Instr.assertion .b ∉ clockState.due := by
  have a := mem_due_lineChange clockState .a true
  have b := mem_due_lineChange clockState .b true
  refine ⟨fun h => a.2 ⟨?_, rfl⟩, fun h => absurd (b.1 h).1 (by decide)⟩
  rw [State.lineDue, h]
  rfl

theorem witness_ResetsClearEveryBlock : (world (testRecord .pwm .running)).resetn = .high := rfl

theorem witness_ResetnReleaseTakesLevels :
    ({ clockState with resetn := .low } : State).resetn ≠ .high ∧
    ({ clockState with resetn := .lowSincePowerOn } : State).resetn ≠ .high ∧
    clockState.pins[(1 : Pin)].board = some true := by decide

theorem witness_CommandThatCannotOccurChangesNothing : canOccur .start State.reset = false := by decide

/-- The shortest and the longest parameters of a good frame. -/
theorem witness_GoodRequestTransactionArrives :
    State.reset.resetn = .high ∧ State.reset.csnLow = false ∧ ([] : List Byte).length ≤ 28 ∧
    (List.replicate 28 (0 : Byte)).length ≤ 28 := by decide

theorem witness_ArrivalFillsRequestSlot :
    (let s := serve State.reset 1 .ping []
     s.ports[(2 : Agent)].request = .empty ∧ s.engine.op = some ⟨1, false, .chosen⟩ ∧
       s.ports[(1 : Agent)].request ≠ .empty) ∧
    (State.reset.ports[(2 : Agent)].request = .empty ∧ State.reset.engine.op = none ∧
      ∀ b : Agent, (State.reset.ports[b].request.chosen).isNone = true) := by decide

/-- A frame with no length byte, one with length byte 29, one a byte short, and one with a wrong CRC-8 after 28
parameter bytes. -/
theorem witness_MalformedRequestTransactionIsDropped :
    State.reset.resetn = .high ∧ State.reset.csnLow = false ∧
    ([0x03] : List Byte).length < 2 ∧
    28 < (([0x50, 1, 0x03, 29] : List Byte).getD 3 0).toNat ∧
    ([0x50, 1, 0x03, 0] : List Byte).length ≠ 5 + 0 ∧
    (let bytes : List Byte := [0x50, 1, 0x10, 28] ++ List.replicate 28 0 ++ [0]
     2 ≤ ([0x10, 28] ++ List.replicate 28 (0 : Byte) ++ [0]).length ∧ (bytes.getD 3 0).toNat ≤ 28 ∧
       bytes.length = 5 + (bytes.getD 3 0).toNat ∧
       bytes.getD (4 + 28) 0 ≠ crc8 (bytes.take (4 + 28))) := by decide +kernel

/-- Agent 1 with a READY response, before a FETCH; agent 2 with none, and agent 3 with a request QUEUED. -/
def fetchState : State :=
  { State.reset with
    ports := put (put State.reset.ports 1 { Port.initial with response := some ⟨5, 3, .ok, []⟩ }) 3
      { Port.initial with request := .queued ⟨1, 3, []⟩ } }

theorem witness_FetchTransactionSendsResponse :
    fetchState.resetn = .high ∧ fetchState.csnLow = false ∧
    fetchState.ports[(1 : Agent)].response = some ⟨5, 3, .ok, []⟩ ∧ fetchState.ports[(1 : Agent)].request = .empty ∧
    fetchState.ports[(2 : Agent)].response = none ∧ fetchState.ports[(3 : Agent)].request = .queued ⟨1, 3, []⟩ := by
  decide

theorem witness_StatusAndCutTransactions :
    (fetchState.resetn = .high ∧ fetchState.csnLow = false) ∧
    (let s := { State.reset with csnLow := true }
     s.csnLow = true ∧ s.receiver = none) ∧
    (let s := { State.reset with resetn := .low }
     s.csnLow = false ∧ s.resetn ≠ .high ∧
       ∀ x ∈ [((0x40 : Byte), 0), (0x5F, 1), (0xEF, 2), (0xFF, 3)], ∀ h ∈ [x.1].head?, h.toNat / 16 % 4 = x.2) ∧
    ∀ x ∈ [(Instr.headerType0Transaction ⟨true, [], 0, true⟩, 0), (.requestTransaction ⟨true, [], 0, true⟩, 1),
        (.fetchTransaction ⟨true, [], 0, true⟩, 2), (.statusTransaction ⟨true, [], 0, true⟩, 3)],
      canOccur x.1 { State.reset with resetn := .lowSincePowerOn } = true := by decide

/-! ## Witnesses: the request engine -/

/-- An idle engine whose last-served agent is 3, with agent 3's request and agent 2's sweep queued. -/
theorem witness_PostingThenRoundRobinChoice :
    (serve State.reset 1 .ping []).engine.op = some ⟨1, false, .chosen⟩ ∧
    (State.reset.engine.op = none ∧ ∀ a : Agent, (State.reset.ports[a].request.chosen).isNone = true) ∧
    (fetchState.engine.op = none ∧ fetchState.engine.lastServed + 1 + 3 = 3 ∧
      (∀ j : Fin 4, j < 3 →
        (fetchState.ports[fetchState.engine.lastServed + 1 + j].request.chosen).isNone = true) ∧
      fetchState.ports[(3 : Agent)].request = .queued ⟨1, 3, []⟩) ∧
    (let s := { State.reset with ports := put State.reset.ports 0 { Port.initial with request := .sweepQueued } }
     s.engine.op = none ∧ s.ports[s.engine.lastServed + 1 + 0].request = .sweepQueued) := by decide

theorem witness_FirstFailingCheckRefuses :
    (let s := (serve State.reset 1 .ping []).setSession 1 Session.initial
     s.serving = some (1, ⟨5, 0x03, []⟩) ∧ s.sessions[(1 : Agent)].state ≠ .opened) ∧
    (let s := serve State.reset 1 .ping [0]
     s.serving = some (1, ⟨5, 0x03, [0]⟩) ∧ s.sessions[(1 : Agent)].state = .opened ∧
       ReqCode.ping.lengthOk [0] = false) ∧
    (let s := serve State.reset 1 .restart []
     s.serving = some (1, ⟨5, 0x72, []⟩) ∧ s.sessions[(1 : Agent)].state = .opened ∧
       ReqCode.restart.lengthOk [] = true ∧ ReqCode.restart.sup = true ∧ (1 : Agent) ≠ 0) ∧
    (let s := atWork State.reset 2 .chosen ⟨5, 0x7E, []⟩
     s.serving = some (2, ⟨5, 0x7E, []⟩) ∧ knownCode 0x7E = false) := by decide

/-- Handle value 512, a stale handle, and another agent's record. -/
theorem witness_HandleAndOwnershipChecksRefuse :
    ((serve State.reset 2 .retire [0, 2]).carries 2 .retire 5 [0, 2] ∧
      512 ≤ (([0, 2] : List Byte).getD 0 0).toNat + 256 * (([0, 2] : List Byte).getD 1 0).toNat) ∧
    (let s := serve State.reset 2 .setTag (wordBytes h3.value ++ [9])
     s.carries 2 .setTag 5 (wordBytes h3.value ++ [9]) ∧ s.record? h3 = none) ∧
    (let s := serve (world (testRecord .pwm .idle)) 2 .setTag (wordBytes h3.value ++ [9])
     s.carries 2 .setTag 5 (wordBytes h3.value ++ [9]) ∧ s.record? h3 = some (testRecord .pwm .idle) ∧
       (2 : Agent) ≠ 0 ∧ (testRecord .pwm .idle).owner ≠ 2) :=
  ⟨⟨serve_carries _ _ _ _ (by decide), by decide⟩, ⟨serve_carries _ _ _ _ (by decide), by decide⟩,
    serve_carries _ _ _ _ (by decide), by decide, by decide, by decide⟩

/-- LINK, LIST_LINKS and START_GROUP: handle value 512 in each place, and a stale handle, and another agent's record. -/
theorem witness_HandleAndOwnershipChecksRefuse_links :
    (∀ p ∈ [[0, 0, 2, 0, 3, 0, 0, 0], ([1, 23, 0, 5, 0, 2, 0, 0] : List Byte)],
      (serve State.reset 1 .link p).carries 1 .link 5 p ∧ (p.length = 8 ∧ (p.getD 0 0 = 0 ∧ 512 ≤ (p.getD 1 0).toNat + 256 * (p.getD 2 0).toNat ∨
        512 ≤ (p.getD 4 0).toNat + 256 * (p.getD 5 0).toNat))) ∧
    (∀ p ∈ [([0, 0, 2, 0] : List Byte)], (serve State.reset 1 .listLinks p).carries 1 .listLinks 5 p ∧
      (p.length = 4 ∧ p.getD 0 0 = 0 ∧ 512 ≤ (p.getD 1 0).toNat + 256 * (p.getD 2 0).toNat)) ∧
    (∀ p ∈ [([2, 3, 0, 0, 2] : List Byte)], (serve State.reset 1 .startGroup p).carries 1 .startGroup 5 p ∧
      (p.length = 1 + 2 * (p.getD 0 0).toNat ∧
        ∃ i < (p.getD 0 0).toNat, 512 ≤ (p.getD (1 + 2 * i) 0).toNat + 256 * (p.getD (1 + 2 * i + 1) 0).toNat)) ∧
    (let l : Link := { source := .record h3, event := .done, target := ⟨15, 31⟩, action := .align, enabled := true }
     let p := (0 : Byte) :: wordBytes h3.value ++ [toByte l.event.code] ++ wordBytes l.target.value ++
       [toByte l.action.code, toByte l.enabled.toNat]
     let t := { testRecord .pwm .idle with owner := 2 }
     let u := (world (testRecord .pwm .idle)).setSlot 31 { gen := 15, record := some t }
     (serve (world (testRecord .pwm .idle)) 2 .link p).carries 2 .link 5 p ∧
       (world (testRecord .pwm .idle)).record? l.target = none ∧
       (serve u 2 .link p).carries 2 .link 5 p ∧ u.record? l.target = some t ∧ t.owner = 2 ∧
       u.record? h3 = some (testRecord .pwm .idle) ∧ (testRecord .pwm .idle).owner ≠ 2) ∧
    (let p := (0 : Byte) :: wordBytes h3.value ++ [toByte (7 : Fin 8).val]
     (serve State.reset 1 .listLinks p).carries 1 .listLinks 5 p ∧ State.reset.record? h3 = none) ∧
    (let p := toByte [h3].length :: [h3].flatMap fun h => wordBytes h.value
     (serve State.reset 2 .startGroup p).carries 2 .startGroup 5 p ∧ State.reset.record? h3 = none ∧
       (serve (world (testRecord .pwm .idle)) 2 .startGroup p).carries 2 .startGroup 5 p ∧
       (world (testRecord .pwm .idle)).record? h3 = some (testRecord .pwm .idle) ∧ (testRecord .pwm .idle).owner ≠ 2) :=
  ⟨served_all 1 .link (by decide) _ _ (by decide), served_all 1 .listLinks (by decide) _ _ (by decide),
    served_all 1 .startGroup (by decide) _ _ (by decide),
    ⟨serve_carries _ _ _ _ (by decide), by decide, serve_carries _ _ _ _ (by decide), by decide, rfl, by decide,
      by decide⟩,
    ⟨serve_carries _ _ _ _ (by decide), by decide⟩,
    ⟨serve_carries _ _ _ _ (by decide), by decide, serve_carries _ _ _ _ (by decide), by decide, by decide⟩⟩

/-- A PING without a lease, and with the timer at the full interval of 254 units and just below that of 255; the other
reads, and the lowest values that FIND_BY_PIN and READ_TIMEBASE refuse. -/
theorem witness_ShortReadsAnswerAndChangeNothing :
    (let s := serve State.reset 1 .ping []
     s.carries 1 .ping 5 [] ∧ s.sessions[(1 : Agent)].lease = 0) ∧
    (∀ x ∈ [((254 : Byte), 254 * 65536), (255, 255 * 65536 - 1)],
      (serve (State.reset.setSession 1 ⟨.opened, x.1, x.2, false⟩) 1 .ping []).carries 1 .ping 5 [] ∧
        (State.reset.setSession 1 ⟨.opened, x.1, x.2, false⟩).sessions[(1 : Agent)].timer / 65536 ≤ 254) ∧
    (∀ p ∈ [([24] : List Byte)],
      (serve State.reset 1 .findByPin p).carries 1 .findByPin 5 p ∧ 23 < (byteAt p 0).toNat) ∧
    (∀ p ∈ [([4] : List Byte)],
      (serve State.reset 1 .readTimebase p).carries 1 .readTimebase 5 p ∧ 3 < (byteAt p 0).toNat) ∧
    (serve State.reset 1 .readDevice []).carries 1 .readDevice 5 [] ∧
    (serve State.reset 1 .findByPin [toByte (23 : Pin).val]).carries 1 .findByPin 5 [toByte (23 : Pin).val] ∧
    (serve State.reset 1 .readTimebase [toByte (3 : Base).val]).carries 1 .readTimebase 5 [toByte (3 : Base).val] ∧
    (serve State.reset 1 .readInhibit []).carries 1 .readInhibit 5 [] :=
  ⟨⟨serve_carries _ _ _ _ (by decide), by decide⟩,
    fun x hx => ⟨serve_carries _ _ _ _ (by decide), by revert x hx; decide⟩,
    served_all 1 .findByPin (by decide) _ _ (by decide), served_all 1 .readTimebase (by decide) _ _ (by decide),
    serve_carries _ _ _ _ (by decide), serve_carries _ _ _ _ (by decide), serve_carries _ _ _ _ (by decide),
    serve_carries _ _ _ _ (by decide)⟩

theorem witness_TableReadsAnswerAndChangeNothing :
    (let s := serve (world (testRecord .pwm .idle)) 1 .readRecord (wordBytes h3.value)
     s.carries 1 .readRecord 5 (wordBytes h3.value) ∧ s.record? h3 = some (testRecord .pwm .idle)) ∧
    (let s := serve (world (testRecord .pwm .idle)) 1 .listLinks ((0 : Byte) :: wordBytes h3.value ++ [toByte 7])
     s.carries 1 .listLinks 5 ((0 : Byte) :: wordBytes h3.value ++ [toByte 7]) ∧ (s.record? h3).isSome = true) ∧
    (serve State.reset 1 .listLinks ((1 : Byte) :: wordBytes 23 ++ [toByte 0])).carries 1 .listLinks 5
      ((1 : Byte) :: wordBytes 23 ++ [toByte 0]) ∧
    (serve State.reset 1 .readPins [toByte 0, toByte 16, toByte 8]).carries 1 .readPins 5
      [toByte 0, toByte 16, toByte 8] ∧
    (serve State.reset 1 .readPins [toByte 1, toByte 23, toByte 1]).carries 1 .readPins 5
      [toByte 1, toByte 23, toByte 1] :=
  ⟨⟨serve_carries _ _ _ _ (by decide), by decide⟩, ⟨serve_carries _ _ _ _ (by decide), by decide⟩,
    serve_carries _ _ _ _ (by decide), serve_carries _ _ _ _ (by decide), serve_carries _ _ _ _ (by decide)⟩

/-- A source type, handle, pin and start position out of range; a form, first pin, count and last pin out of range. -/
theorem witness_TableReadsAnswerAndChangeNothing_fields :
    (∀ p ∈ [([2, 0, 0, 0] : List Byte), [0, 0, 2, 0], [1, 24, 0, 0], [1, 0, 0, 8]],
      (serve State.reset 1 .listLinks p).carries 1 .listLinks 5 p ∧
        (1 < (byteAt p 0).toNat ∨ byteAt p 0 = 0 ∧ 511 < (byteAt p 1).toNat + 256 * (byteAt p 2).toNat ∨
          byteAt p 0 = 1 ∧ 23 < (byteAt p 1).toNat + 256 * (byteAt p 2).toNat ∨ 7 < (byteAt p 3).toNat)) ∧
    (∀ p ∈ [([2, 0, 1] : List Byte), [0, 24, 1], [0, 0, 0], [0, 0, 9], [1, 17, 8]],
      (serve State.reset 1 .readPins p).carries 1 .readPins 5 p ∧
        (1 < (byteAt p 0).toNat ∨ 23 < (byteAt p 1).toNat ∨ byteAt p 2 = 0 ∨ 8 < (byteAt p 2).toNat ∨
          24 < (byteAt p 1).toNat + (byteAt p 2).toNat)) :=
  ⟨served_all 1 .listLinks (by decide) _ _ (by decide), served_all 1 .readPins (by decide) _ _ (by decide)⟩

theorem witness_ReadRecordBytes :
    ({ testRecord .pwm .idle with outgoing := [0, 1, 2, 3, 4, 5, 6, 63] } : Record).outgoing.length ≤ 8 := by decide

/-! ## Witnesses: sessions and RESTART -/

theorem witness_OpenSessionOpens :
    (let s := serve State.reset 1 .openSession [255]
     s.carries 1 .openSession 5 [255] ∧ s.sessions[(1 : Agent)].state ≠ .lapsed) ∧
    (let s := (serve State.reset 1 .openSession [0]).setSession 1 ⟨.lapsed, 1, 0, true⟩
     s.carries 1 .openSession 5 [0] ∧ s.sessions[(1 : Agent)].state = .lapsed) :=
  ⟨⟨serve_carries _ _ _ _ (by decide), by decide⟩, ⟨by decide, .inl rfl, by decide⟩, by decide⟩

theorem witness_CloseSessionRetiresAndCloses :
    (serve State.reset 1 .closeSession []).carries 1 .closeSession 5 [] ∧
    (let s := atWork (world (testRecord .pwm .idle)) 1 (.closing 3 0) ⟨5, 0x02, []⟩
     s.working = some (1, ⟨5, 0x02, []⟩, .closing 3 0) ∧
       s.slots[(3 : SlotIx)].record = some (testRecord .pwm .idle) ∧ (testRecord .pwm .idle).owner = 1) ∧
    (let s := atWork fullTable 2 (.closing 31 4) ⟨5, 0x02, []⟩
     s.working = some (2, ⟨5, 0x02, []⟩, .closing 31 4) ∧
       s.slots[(31 : SlotIx)].record = some (testRecord .pwm .idle) ∧ (testRecord .pwm .idle).owner ≠ 2) :=
  ⟨serve_carries _ _ _ _ (by decide), ⟨atWork_working _ _ _ _, by decide, rfl⟩, atWork_working _ _ _ _, by decide,
    by decide⟩

theorem witness_ForceCloseDiscardsRetiresAndCloses :
    (let s := serve fetchState 0 .forceClose [toByte (3 : Agent).val]
     (3 : Agent) ≠ 0 ∧ s.carries 0 .forceClose 5 [toByte (3 : Agent).val] ∧
       s.ports[(3 : Agent)].request = .queued ⟨1, 3, []⟩) ∧
    (let s := serve (State.reset.setPort 1 { Port.initial with request := .sweepQueued }) 0 .forceClose
       [toByte (1 : Agent).val]
     s.carries 0 .forceClose 5 [toByte (1 : Agent).val] ∧ s.ports[(1 : Agent)].request = .sweepQueued) ∧
    (let s := serve fetchState 0 .forceClose [toByte (1 : Agent).val]
     s.carries 0 .forceClose 5 [toByte (1 : Agent).val] ∧ s.ports[(1 : Agent)].request = .empty) ∧
    (let s := atWork fullTable 0 (.forceClosing 1 .opened true false 31 5) ⟨5, 0x71, [1]⟩
     s.working = some (0, ⟨5, 0x71, [1]⟩, .forceClosing 1 .opened true false 31 5) ∧
       s.slots[(31 : SlotIx)].record = some (testRecord .pwm .idle) ∧ (testRecord .pwm .idle).owner = 1) ∧
    (let s := atWork State.reset 0 (.forceClosing 1 .opened true false 0 0) ⟨5, 0x71, [1]⟩
     s.working = some (0, ⟨5, 0x71, [1]⟩, .forceClosing 1 .opened true false 0 0) ∧
       s.slots[(0 : SlotIx)].record = none) :=
  ⟨⟨by decide, serve_carries _ _ _ _ (by decide), by decide⟩, ⟨serve_carries _ _ _ _ (by decide), by decide⟩,
    ⟨serve_carries _ _ _ _ (by decide), by decide⟩, ⟨atWork_working _ _ _ _, by decide, rfl⟩,
    atWork_working _ _ _ _, by decide⟩

/-- The agents that FORCE_CLOSE and ADOPT refuse, and handle value 512. -/
theorem witness_AgentFields :
    (∀ p ∈ [([0] : List Byte), [4]], (serve State.reset 0 .forceClose p).carries 0 .forceClose 5 p ∧
      (byteAt p 0 = 0 ∨ 3 < (byteAt p 0).toNat)) ∧
    (∀ p ∈ [([0, 2, 0] : List Byte), [3, 0, 4]], (serve State.reset 0 .adopt p).carries 0 .adopt 5 p ∧
      (511 < (byteAt p 0).toNat + 256 * (byteAt p 1).toNat ∨ 3 < (byteAt p 2).toNat)) :=
  ⟨served_all 0 .forceClose (by decide) _ _ (by decide), served_all 0 .adopt (by decide) _ _ (by decide)⟩

theorem witness_RestartRetiresEverything :
    (let s := serve (fetchState.setPort 2 { Port.initial with request := .sweepQueued }) 0 .restart []
     s.carries 0 .restart 5 [] ∧ s.ports[(1 : Agent)].request = .empty ∧
       s.ports[(2 : Agent)].request = .sweepQueued ∧ s.ports[(3 : Agent)].request = .queued ⟨1, 3, []⟩) ∧
    (let s := atWork fullTable 0 (.restarting 8 31 31) ⟨5, 0x72, []⟩
     s.working = some (0, ⟨5, 0x72, []⟩, .restarting 8 31 31) ∧ s.slots[(31 : SlotIx)].record.isSome = true) ∧
    (let s := atWork State.reset 0 (.restarting 0 0 0) ⟨5, 0x72, []⟩
     s.working = some (0, ⟨5, 0x72, []⟩, .restarting 0 0 0) ∧ s.slots[(0 : SlotIx)].record = none) :=
  ⟨⟨serve_carries _ _ _ _ (by decide), by decide⟩, ⟨atWork_working _ _ _ _, by decide⟩, atWork_working _ _ _ _,
    by decide⟩

theorem witness_LeaseExpiryLapsesSession :
    clockState.sessions[(1 : Agent)].state = .opened ∧ clockState.sessions[(1 : Agent)].lease ≠ 0 ∧
    clockState.ports[(1 : Agent)].request = .empty := by decide

theorem witness_LapseSweepAppliesLapseActions :
    (let s := atSweep State.reset 1 .chosen
     s.engine.op = some ⟨1, true, .chosen⟩ ∧ s.ports[(1 : Agent)].request = .sweepActive) ∧
    (let s (l : LapseAction) := atSweep (world { testRecord .pwm .running with lapse := l }) 1 (.sweeping 3)
     ∀ l ∈ [LapseAction.keep, .park, .retire], (s l).engine.op = some ⟨1, true, .sweeping 3⟩ ∧
       (s l).slots[(3 : SlotIx)].record = some { testRecord .pwm .running with lapse := l }) ∧
    (let s := atSweep State.reset 1 (.sweeping 31)
     s.engine.op = some ⟨1, true, .sweeping 31⟩ ∧ s.slots[(31 : SlotIx)].record = none) := by decide

theorem witness_AdoptChangesOwner :
    (let r := { testRecord .pwm .idle with pin := some 5 }
     let s := serve (withRole (world r) 5 .output 2 (some h3)) 0 .adopt (wordBytes h3.value ++ [toByte (2 : Agent).val])
     s.record? h3 = some r ∧ s.carries 0 .adopt 5 (wordBytes h3.value ++ [toByte (2 : Agent).val]) ∧
       s.sessions[(2 : Agent)].state ≠ .opened ∧
       (s.setSession 2 ⟨.opened, 0, 0, false⟩).carries 0 .adopt 5 (wordBytes h3.value ++ [toByte (2 : Agent).val]) ∧
       s.granted 2 5 = false) ∧
    (let s := serve (world (testRecord .pwm .idle)) 0 .adopt (wordBytes h3.value ++ [toByte (0 : Agent).val])
     s.record? h3 = some (testRecord .pwm .idle) ∧ s.sessions[(0 : Agent)].state = .opened ∧
       s.carries 0 .adopt 5 (wordBytes h3.value ++ [toByte (0 : Agent).val]) ∧ (testRecord .pwm .idle).pin = none) :=
  ⟨⟨by decide, serve_carries _ _ _ _ (by decide), by decide, ⟨by decide, .inr (by decide), by decide⟩, by decide⟩,
    by decide, by decide, serve_carries _ _ _ _ (by decide), rfl⟩

/-! ## Witnesses: records -/

/-- A part whose slots 0 to 30 are occupied, and whose GP23 is an OUTPUT pin granted to agent 1. -/
def createState : State :=
  withRole { fullTable with slots := put fullTable.slots 31 { gen := 15, record := none } } 23 .output 2 none

/-- The parameters of a PWM CREATE on GP23. -/
def pwmParams : List Byte :=
  [6, 0] ++ wordBytes 5 ++ wordBytes 2 ++ wordBytes 0 ++
    [0, 1, 0, toByte (23 : Pin).val, 7, toByte LapseAction.park.code]

theorem witness_CreateMakesIdleRecord :
    (serve createState 1 .create pwmParams).carries 1 .create 5 pwmParams ∧
    createState.slots[(31 : SlotIx)].record = none ∧
    (∀ j : SlotIx, j < 31 → createState.slots[j].record.isSome = true) ∧
    createState.pins[(23 : Pin)].config.role = .output ∧
    createState.pins[(23 : Pin)].grants.getLsbD (1 : Agent).val = true ∧
    createState.pins[(23 : Pin)].claim = none :=
  ⟨serve_carries _ _ _ _ (by decide), by decide, by decide, by decide, by decide, by decide⟩

/-- The parameters of a LEVEL CREATE without a pin, on TB3. -/
def noPinParams : List Byte :=
  [0, 3] ++ wordBytes 0 ++ wordBytes 0 ++ wordBytes 0 ++ [1, 1, 0, 0xFF, 7, toByte LapseAction.retire.code]

/-- CREATE of a PWM record on GP23: the pin is no OUTPUT pin, is not granted, and is claimed; and no slot is EMPTY, with
a pin and without one. -/
theorem witness_CreateRefusedBySlotOrPin :
    ((serve fullTable 1 .create pwmParams).carries 1 .create 5 pwmParams ∧
      (serve fullTable 1 .create noPinParams).carries 1 .create 5 noPinParams ∧
      ∀ i : SlotIx, fullTable.slots[i].record.isSome = true) ∧
    ((serve State.reset 1 .create pwmParams).carries 1 .create 5 pwmParams ∧
      State.reset.slots[(0 : SlotIx)].record = none ∧ State.reset.pins[(23 : Pin)].config.role ≠ .output) ∧
    (createState.slots[(31 : SlotIx)].record = none ∧ createState.pins[(23 : Pin)].config.role = .output ∧
      (2 : Agent) ≠ 0 ∧ createState.pins[(23 : Pin)].grants.getLsbD (2 : Agent).val = false) ∧
    (let s := createState.setClaim 23 (some h3)
     s.slots[(31 : SlotIx)].record = none ∧ s.pins[(23 : Pin)].config.role = .output ∧
       s.pins[(23 : Pin)].grants.getLsbD (1 : Agent).val = true ∧ s.pins[(23 : Pin)].claim.isSome = true) :=
  ⟨⟨serve_carries _ _ _ _ (by decide), serve_carries _ _ _ _ (by decide), by decide⟩,
    ⟨serve_carries _ _ _ _ (by decide), by decide⟩, by decide, by decide⟩

/-- Each row of R12: kind 7, base 4, a timed kind with period 0, LEVEL with a period and with a mark A, PWM with a mark
B, level 2, a level, a rearm and an invert out of place or range, pin 24, and lapse action 3. -/
theorem witness_CreateRefusedBySlotOrPin_fields :
    ∀ p ∈ [([7, 0, 1, 0, 0, 0, 0, 0, 0, 0, 0, 255, 0, 0] : List Byte), [0, 4, 0, 0, 0, 0, 0, 0, 0, 0, 0, 255, 0, 0],
        [6, 0, 0, 0, 0, 0, 0, 0, 0, 0, 0, 255, 0, 0], [0, 0, 0, 1, 0, 0, 0, 0, 0, 0, 0, 255, 0, 0],
        [0, 0, 0, 0, 1, 0, 0, 0, 0, 0, 0, 255, 0, 0], [6, 0, 1, 0, 0, 0, 0, 1, 0, 0, 0, 255, 0, 0],
        [0, 0, 0, 0, 0, 0, 0, 0, 2, 0, 0, 255, 0, 0], [1, 0, 1, 0, 0, 0, 0, 0, 1, 0, 0, 255, 0, 0],
        [0, 0, 0, 0, 0, 0, 0, 0, 0, 2, 0, 255, 0, 0], [4, 0, 1, 0, 0, 0, 0, 0, 0, 0, 2, 255, 0, 0],
        [5, 0, 1, 0, 0, 0, 0, 0, 0, 0, 1, 255, 0, 0], [0, 0, 0, 0, 0, 0, 0, 0, 0, 0, 0, 24, 0, 0],
        [0, 0, 0, 0, 0, 0, 0, 0, 0, 0, 0, 255, 0, 3]],
      (serve State.reset 1 .create p).carries 1 .create 5 p ∧
        (let b (i : Nat) : Nat := (p.getD i 0).toNat
         p.length = 14 ∧ (6 < b 0 ∨ 3 < b 1 ∨ (b 0 ≠ 0 ∧ b 2 = 0 ∧ b 3 = 0) ∨
           (b 0 = 0 ∧ (b 2 ≠ 0 ∨ b 3 ≠ 0 ∨ b 4 ≠ 0 ∨ b 5 ≠ 0)) ∨ (b 0 ≠ 4 ∧ b 0 ≠ 5 ∧ (b 6 ≠ 0 ∨ b 7 ≠ 0)) ∨
           1 < b 8 ∨ (b 0 ≠ 0 ∧ b 0 ≠ 3 ∧ b 8 ≠ 0) ∨ 1 < b 9 ∨ 1 < b 10 ∨ (b 0 ≠ 4 ∧ b 10 ≠ 0) ∨
           (23 < b 11 ∧ b 11 ≠ 255) ∨ 2 < b 13)) :=
  served_all 1 .create (by decide) _ _ (by decide)

theorem witness_RetireEmptiesSlotAndFreesLinks :
    (let s := serve (world (testRecord .pwm .idle)) 1 .retire (wordBytes h3.value)
     s.record? h3 = some (testRecord .pwm .idle) ∧ (testRecord .pwm .idle).owner = 1 ∧
       s.carries 1 .retire 5 (wordBytes h3.value)) ∧
    (let s := atWork (fullPool State.reset) 1 (.retiring h3 63) ⟨5, 0x11, [3, 0]⟩
     s.working = some (1, ⟨5, 0x11, [3, 0]⟩, .retiring h3 63) ∧ s.links[(63 : LinkIx)] = some testLink ∧
       testLink.target = h3) ∧
    (let s := atWork State.reset 1 (.retiring h3 0) ⟨5, 0x11, [3, 0]⟩
     s.working = some (1, ⟨5, 0x11, [3, 0]⟩, .retiring h3 0) ∧ s.links[(0 : LinkIx)] = none) :=
  ⟨⟨by decide, rfl, serve_carries _ _ _ _ (by decide)⟩, ⟨atWork_working _ _ _ _, by decide, rfl⟩,
    atWork_working _ _ _ _, by decide⟩

theorem witness_RetirementLeavesNoTrace :
    fullTable.slots[(31 : SlotIx)].record = some (testRecord .pwm .idle) ∧
    (fullPool fullTable).links[(0 : LinkIx)] = some testLink ∧ testLink.target ≠ ⟨0, 31⟩ ∧
    testLink.source ≠ .record ⟨0, 31⟩ ∧
    (let s := (fullPool (world (testRecord .pwm .idle))).setLinkList (.pin 5) [9, 2]
     s.slots[(3 : SlotIx)].record = some (testRecord .pwm .idle) ∧ s.pins[(5 : Pin)].links = [9, 2] ∧
       s.links[(9 : LinkIx)] = some testLink ∧ testLink.target = ⟨0, 3⟩) := by decide

/-- Eight handles. -/
def eight : List Handle := List.replicate 8 h3

theorem witness_FindByTagCollectsHandles :
    (serve State.reset 1 .findByTag [7, toByte (31 : SlotIx).val]).carries 1 .findByTag 5
      [7, toByte (31 : SlotIx).val] ∧
    ((serve State.reset 1 .findByTag [7, 32]).carries 1 .findByTag 5 [7, 32] ∧ 31 < (32 : Byte).toNat) ∧
    (let s (found : List Handle) := atWork fullTable 0 (.finding 7 31 found) ⟨5, 0x14, [7, 0]⟩
     (s eight).working = some (0, ⟨5, 0x14, [7, 0]⟩, .finding 7 31 eight) ∧
       (s (eight.drop 1)).working = some (0, ⟨5, 0x14, [7, 0]⟩, .finding 7 31 (eight.drop 1)) ∧
       (s eight).slots[(31 : SlotIx)].record = some (testRecord .pwm .idle) ∧ (testRecord .pwm .idle).tag = 7) ∧
    (let s := atWork fullTable 2 (.finding 7 0 []) ⟨5, 0x14, [7, 0]⟩
     s.working = some (2, ⟨5, 0x14, [7, 0]⟩, .finding 7 0 []) ∧
       s.slots[(0 : SlotIx)].record = some (testRecord .pwm .idle) ∧ (2 : Agent) ≠ 0 ∧
       (testRecord .pwm .idle).owner ≠ 2) :=
  ⟨serve_carries _ _ _ _ (by decide), ⟨serve_carries _ _ _ _ (by decide), by decide⟩,
    ⟨atWork_working _ _ _ _, atWork_working _ _ _ _, by decide, rfl⟩, atWork_working _ _ _ _, by decide, by decide,
    by decide⟩

/-- A request of agent 1 on its record in slot 3. -/
theorem ownRequest (r : Record) (ho : r.owner = 1) (c : ReqCode) (p : List Byte) (h : c.sup = false) :
    (serve (world r) 1 c p).record? h3 = some r ∧ r.owner = 1 ∧ (serve (world r) 1 c p).carries 1 c 5 p := by
  refine ⟨?_, ho, serve_carries _ _ _ _ (by simp [h])⟩
  rw [record?_eq_some]
  constructor
  · simp only [serve, atWork, world, setRecord_slots, put_get_fin]
    rfl
  · simp only [serve, atWork, world, setRecord_slots, put_get_fin]
    rfl

/-- Lapse action 3, level 2, notice set 512, attention 2 and pin 24 of a MOVE. -/
theorem witness_OneFieldRequests :
    (∀ p ∈ [wordBytes h3.value ++ [(3 : Byte)]], (serve State.reset 1 .setLapse p).carries 1 .setLapse 5 p ∧
      2 < (byteAt p 2).toNat) ∧
    (∀ p ∈ [wordBytes h3.value ++ [(2 : Byte)]], (serve State.reset 1 .setLevel p).carries 1 .setLevel 5 p ∧
      1 < (byteAt p 2).toNat) ∧
    (∀ p ∈ [wordBytes h3.value ++ wordBytes (512 : Word).toNat],
      (serve State.reset 1 .setNotices p).carries 1 .setNotices 5 p ∧ 511 < (512 : Word).toNat) ∧
    (∀ p ∈ [([2] : List Byte)], (serve State.reset 1 .setAttention p).carries 1 .setAttention 5 p ∧
      1 < (byteAt p 0).toNat) ∧
    (∀ p ∈ [wordBytes h3.value ++ [(24 : Byte)]], (serve State.reset 1 .move p).carries 1 .move 5 p ∧
      (23 < (byteAt p 2).toNat ∧ byteAt p 2 ≠ 0xFF)) :=
  ⟨served_all 1 .setLapse (by decide) _ _ (by decide), served_all 1 .setLevel (by decide) _ _ (by decide),
    served_all 1 .setNotices (by decide) _ _ (by decide), served_all 1 .setAttention (by decide) _ _ (by decide),
    served_all 1 .move (by decide) _ _ (by decide)⟩

theorem witness_TagAndLapseRequestsReplaceOneField :
    (let s := serve (world (testRecord .pwm .idle)) 1 .setTag (wordBytes h3.value ++ [255])
     s.record? h3 = some (testRecord .pwm .idle) ∧ (testRecord .pwm .idle).owner = 1 ∧
       s.carries 1 .setTag 5 (wordBytes h3.value ++ [255])) ∧
    (let s := serve (world (testRecord .pwm .idle)) 1 .setLapse (wordBytes h3.value ++ [toByte LapseAction.park.code])
     s.record? h3 = some (testRecord .pwm .idle) ∧ (testRecord .pwm .idle).owner = 1 ∧
       s.carries 1 .setLapse 5 (wordBytes h3.value ++ [toByte LapseAction.park.code])) :=
  ⟨ownRequest _ rfl _ _ rfl, ownRequest _ rfl _ _ rfl⟩

/-! ## Witnesses: notices -/

theorem witness_NoticeIsOfferedToTheSets :
    hasNotice (testRecord .pwm .idle).enableSet .period = false ∧
    (hasNotice (testRecord .pwm .idle).enableSet .lapsed = true ∧
      hasNotice (testRecord .pwm .idle).pendingSet .lapsed = false) ∧
    (let r := { testRecord .pwm .idle with pendingSet := 0x100 }
     hasNotice r.enableSet .lapsed = true ∧ hasNotice r.pendingSet .lapsed = true) := by decide

theorem witness_NoticeRequestsReplaceEnables :
    (let p := wordBytes h3.value ++ wordBytes (0x1FF : NoticeSet).toNat
     let s := serve (world (testRecord .pwm .idle)) 1 .setNotices p
     s.record? h3 = some (testRecord .pwm .idle) ∧ (testRecord .pwm .idle).owner = 1 ∧ s.carries 1 .setNotices 5 p) ∧
    (serve State.reset 1 .setAttention [toByte true.toNat]).carries 1 .setAttention 5 [toByte true.toNat] :=
  ⟨ownRequest _ rfl _ _ rfl, serve_carries _ _ _ _ (by decide)⟩

/-- A record with a notice pending. -/
def pendingRecord : Record := { testRecord .pwm .idle with pendingSet := 0x100 }

/-- Entries of a COLLECT. -/
def entries (n : Nat) : List Collected := List.replicate n ⟨h3, 1, 0⟩

theorem witness_CollectTakesPendingNotices :
    (serve State.reset 1 .collect [toByte (31 : SlotIx).val]).carries 1 .collect 5 [toByte (31 : SlotIx).val] ∧
    ((serve State.reset 1 .collect [32]).carries 1 .collect 5 [32] ∧ 31 < (32 : Byte).toNat) ∧
    (let s (n : Nat) := atWork (world pendingRecord) 1 (.collecting 3 (entries n)) ⟨5, 0x05, [0]⟩
     (s 5).working = some (1, ⟨5, 0x05, [0]⟩, .collecting 3 (entries 5)) ∧
       (s 6).working = some (1, ⟨5, 0x05, [0]⟩, .collecting 3 (entries 6)) ∧
       (s 5).slots[(3 : SlotIx)].record = some pendingRecord ∧ (s 6).slots[(3 : SlotIx)].record = some pendingRecord ∧
       pendingRecord.owner = 1 ∧ pendingRecord.pendingSet ≠ 0) ∧
    (let s := atWork fullTable 1 (.collecting 31 (entries 6)) ⟨5, 0x05, [0]⟩
     s.working = some (1, ⟨5, 0x05, [0]⟩, .collecting 31 (entries 6)) ∧
       s.slots[(31 : SlotIx)].record = some (testRecord .pwm .idle) ∧ (testRecord .pwm .idle).pendingSet = 0) :=
  ⟨serve_carries _ _ _ _ (by decide), ⟨serve_carries _ _ _ _ (by decide), by decide⟩,
    ⟨atWork_working _ _ _ _, atWork_working _ _ _ _, by decide, by decide, rfl, by decide⟩, atWork_working _ _ _ _,
    by decide, rfl⟩

/-! ## Witnesses: running a record -/

/-- START, ARM and STOP of a record in any state. -/
theorem witness_StartArmAndStopRequests (k : Kind) (st : RecState) :
    ∀ c ∈ [ReqCode.start, .arm, .stop],
      let s := serve (world (testRecord k st)) 1 c (wordBytes h3.value)
      s.record? h3 = some (testRecord k st) ∧ (testRecord k st).owner = 1 ∧ s.carries 1 c 5 (wordBytes h3.value) := by
  intro c hc
  exact ownRequest _ rfl _ _ (by revert c; decide)

/-- SET_LEVEL, SET_TIMING (period 1 and 65535, and 0) and CANCEL_STAGED of a record of any kind in any state. -/
theorem witness_LevelAndTimingRequests (k : Kind) (st : RecState) :
    ∀ x ∈ [(ReqCode.setLevel, wordBytes h3.value ++ [toByte true.toNat]),
        (.setTiming, wordBytes h3.value ++ wordBytes 1 ++ wordBytes 0 ++ wordBytes 0),
        (.setTiming, wordBytes h3.value ++ wordBytes 65535 ++ wordBytes 65535 ++ wordBytes 65535),
        (.setTiming, wordBytes h3.value ++ wordBytes 0 ++ wordBytes 0 ++ wordBytes 0),
        (.cancelStaged, wordBytes h3.value)],
      let s := serve (world (testRecord k st)) 1 x.1 x.2
      s.record? h3 = some (testRecord k st) ∧ (testRecord k st).owner = 1 ∧ s.carries 1 x.1 5 x.2 := by
  intro x hx
  refine ownRequest _ rfl _ _ ?_
  simp only [List.mem_cons, List.not_mem_nil, or_false] at hx
  rcases hx with rfl | rfl | rfl | rfl | rfl <;> rfl

/-- A group start of one record, and the last visit of another. -/
theorem witness_StartGroupMarksAndSetsLatch :
    (let p := toByte [h3].length :: [h3].flatMap fun h => wordBytes h.value
     let s := serve (world (testRecord .pwm .idle)) 1 .startGroup p
     s.record? h3 = some (testRecord .pwm .idle) ∧ (testRecord .pwm .idle).owner = 1 ∧ s.carries 1 .startGroup 5 p ∧
       (testRecord .pwm .idle).base = 0 ∧ (testRecord .pwm .idle).state ≠ .running) ∧
    (∀ st ∈ [RecState.idle, .running],
      let s := atWork (world (testRecord .pwm st)) 1 (.grouping 0 [h3] 7 0) ⟨5, 0x26, []⟩
      s.working = some (1, ⟨5, 0x26, []⟩, .grouping 0 [h3] 7 0) ∧ s.record? h3 = some (testRecord .pwm st)) :=
  ⟨⟨(ownRequest _ rfl _ _ rfl).1, rfl, (ownRequest _ rfl _ _ rfl).2.2, rfl, by decide⟩, by decide⟩

/-- A part with a second record, in slot 4. -/
def twoRecords (x y : Record) : State :=
  (world x).setRecord 4 y

/-- A count of 0 and of 9; one handle twice; two bases; and a RUNNING record. -/
theorem witness_StartGroupMarksAndSetsLatch_refused :
    (∀ p ∈ [([0] : List Byte), 9 :: List.replicate 18 0],
      (serve State.reset 1 .startGroup p).carries 1 .startGroup 5 p ∧ (p.length = 1 + 2 * (byteAt p 0).toNat ∧ (byteAt p 0 = 0 ∨ 8 < (byteAt p 0).toNat))) ∧
    (let hs : List Handle := [h3, h3]
     let p := toByte hs.length :: hs.flatMap fun h => wordBytes h.value
     (serve (world (testRecord .pwm .idle)) 0 .startGroup p).carries 0 .startGroup 5 p ∧ ¬ hs.Nodup) ∧
    (let hs : List Handle := [h3, ⟨0, 4⟩]
     let p := toByte hs.length :: hs.flatMap fun h => wordBytes h.value
     let y := { testRecord .pwm .running with base := 3 }
     (serve (twoRecords (testRecord .pwm .idle) y) 1 .startGroup p).carries 1 .startGroup 5 p ∧ hs.Nodup ∧
       (twoRecords (testRecord .pwm .idle) y).record? h3 = some (testRecord .pwm .idle) ∧
       (twoRecords (testRecord .pwm .idle) y).record? ⟨0, 4⟩ = some y ∧ y.owner = 1 ∧
       y.base ≠ (testRecord .pwm .idle).base ∧
       (serve (twoRecords (testRecord .pwm .idle) (testRecord .pwm .running)) 1 .startGroup p).carries 1 .startGroup 5
         p ∧
       (twoRecords (testRecord .pwm .idle) (testRecord .pwm .running)).record? ⟨0, 4⟩ =
         some (testRecord .pwm .running)) :=
  ⟨served_all 1 .startGroup (by decide) _ _ (by decide), ⟨serve_carries _ _ _ _ (by decide), by decide⟩,
    ⟨serve_carries _ _ _ _ (by decide), by decide, by decide, by decide, rfl, by decide,
      serve_carries _ _ _ _ (by decide), by decide⟩⟩

theorem witness_TickReachesEveryRecordOnce :
    (let s := (world (testRecord .pwm .running)).setBase 0 { TimeBase.initial with running := true }
     s.bases[(0 : Base)].running = true ∧ s.slots[(3 : SlotIx)].record = some (testRecord .pwm .running) ∧
       (testRecord .pwm .running).base = 0) := by decide

/-- A record that waits for its latch; one with a cue; and a counter just below and at the last value of its period. -/
theorem witness_RecordTakesTickInOrder :
    ({ testRecord .pwm .idle with groupWait := some 0 } : Record).groupWait = some (testRecord .pwm .idle).base ∧
    ({ testRecord .pwm .running with cue := some ⟨.align, 63⟩ } : Record).cue = some ⟨.align, 63⟩ ∧
    (let r := { testRecord .pwm .running with counter := 3 }
     r.state = .running ∧ r.kind ≠ .level ∧ r.counter.toNat + 1 < r.timing.period.toNat) ∧
    (let r := { testRecord .pwm .running with counter := 4 }
     r.state = .running ∧ r.kind ≠ .level ∧ r.timing.period.toNat ≤ r.counter.toNat + 1) := by decide

/-- The test record at mark A (2) and at mark B (4), below its period; PWM at counter 0; and marks at the period. -/
theorem witness_CompareRaisesAtMostOneMark :
    (∀ k ∈ [Kind.level, .setAt, .clearAt, .toggleAt, .pulseOnce, .pulseTrain, .pwm],
      let r := { testRecord k .running with counter := 2 }
      r.state = .running ∧ r.kind = k ∧ r.phase = .waitA ∧ r.counter ≠ 0 ∧
        (r.counter = r.timing.markA ∧ r.timing.markA < r.timing.period)) ∧
    (∀ k ∈ [Kind.pulseOnce, .pulseTrain], ∀ rearm ∈ [false, true],
      let r := { testRecord k .running with counter := 4, phase := .waitB, rearm := rearm }
      r.kind = k ∧ r.phase = .waitB ∧ r.rearm = rearm ∧ r.counter = r.timing.markB ∧
        r.timing.markB < r.timing.period) ∧
    (testRecord .pwm .running).counter = 0 ∧
    (let r := { testRecord .pwm .running with timing := { period := 5, markA := 5, markB := 5 } }
     ¬ (r.counter = r.timing.markA ∧ r.timing.markA < r.timing.period)) := by decide

theorem witness_OneShotOutputsOverARun :
    ∀ k ∈ [Kind.setAt, .clearAt, .pulseOnce], let r := testRecord k .idle
      r.staged = none ∧ r.cue = none ∧ r.kind = k ∧ r.rearm = false ∧ r.timing.markA < r.timing.markB ∧
        r.timing.markB < r.timing.period ∧ r.timing.markA < r.timing.period := by decide

/-- The three periodic kinds, and mark A at the period. -/
theorem witness_PeriodicOutputsOverARun :
    (∀ k ∈ [Kind.pwm, .pulseTrain, .toggleAt], let r := testRecord k .idle
      r.staged = none ∧ r.cue = none ∧ r.timing.period ≠ 0 ∧ r.kind.periodic = true ∧
        r.timing.markA.toNat < r.timing.markB.toNat ∧ r.timing.markB.toNat < r.timing.period.toNat ∧
        r.timing.markA.toNat < r.timing.period.toNat) ∧
    (let r := { testRecord .toggleAt .idle with timing := { period := 5, markA := 5, markB := 0 } }
     r.kind.periodic = true ∧ r.timing.period ≠ 0 ∧ r.timing.period.toNat ≤ r.timing.markA.toNat) := by decide

/-! ## Witnesses: links, pins, bases and groups -/

/-- The parameters of a LINK from GP5's rising edge to slot 3, START, disabled. -/
def linkParams : List Byte :=
  (1 : Byte) :: wordBytes (5 : Pin).val ++ [toByte SourceEvent.rise.code] ++ wordBytes h3.value ++
    [toByte CueAction.start.code, toByte false.toNat]

/-- GP5 a CUE_INPUT pin granted to agent 1, and slot 3 a record of agent 1. -/
def linkState : State :=
  withRole (world (testRecord .pwm .idle)) 5 .cueInput 2 none

/-- A free pool; the same link in every entry; another link in every entry; and a full list. -/
theorem witness_LinkRequestJoinsList :
    (let s := serve linkState 1 .link linkParams
     s.carries 1 .link 5 linkParams ∧ s.record? h3 = some (testRecord .pwm .idle) ∧
       s.pins[(5 : Pin)].config.role = .cueInput ∧ s.granted 1 5 = true ∧ s.links[(0 : LinkIx)] = none ∧
       s.linkList (.pin 5) = []) ∧
    (serve (fullPool linkState) 1 .link linkParams).links[(0 : LinkIx)] = some testLink ∧
    (let s := serve { linkState with links := tab fun _ => some { testLink with action := .stop } } 1 .link linkParams
     (∀ k : LinkIx, s.links[k].isSome = true) ∧
       ∀ k : LinkIx, s.links[k] ≠ some testLink ∧ s.links[k] ≠ some { testLink with enabled := true }) ∧
    (let s := serve (linkState.setLinkList (.pin 5) [0, 1, 2, 3, 4, 5, 6, 7]) 1 .link linkParams
     8 ≤ (s.linkList (.pin 5)).length ∧ s.links[(0 : LinkIx)] = none) :=
  ⟨⟨serve_carries _ _ _ _ (by decide), by decide, by decide, by decide, by decide, by decide⟩, by decide, by decide,
    by decide⟩

/-- Each field that R72 refuses at its lowest value; and GP5 as a source that is not CUE_INPUT, and without a grant. -/
theorem witness_LinkRequestJoinsList_refused :
    (∀ p ∈ [([2, 0, 0, 0, 0, 0, 0, 0] : List Byte), [0, 0, 2, 0, 0, 0, 0, 0], [0, 0, 0, 5, 0, 0, 0, 0],
        [1, 24, 0, 5, 0, 0, 0, 0], [1, 0, 0, 4, 0, 0, 0, 0], [1, 0, 0, 8, 0, 0, 0, 0], [1, 0, 0, 5, 0, 2, 0, 0],
        [1, 0, 0, 5, 0, 0, 3, 0], [1, 0, 0, 5, 0, 0, 0, 2]],
      (serve State.reset 1 .link p).carries 1 .link 5 p ∧
        (let b (i : Nat) : Nat := (p.getD i 0).toNat
         p.length = 8 ∧ (1 < b 0 ∨ (b 0 = 0 ∧ (511 < b 1 + 256 * b 2 ∨ 4 < b 3)) ∨
           (b 0 = 1 ∧ (23 < b 1 + 256 * b 2 ∨ b 3 < 5 ∨ 7 < b 3)) ∨ 511 < b 4 + 256 * b 5 ∨ 2 < b 6 ∨ 1 < b 7))) ∧
    (let s := serve (world (testRecord .pwm .idle)) 1 .link linkParams
     s.carries 1 .link 5 linkParams ∧ s.record? h3 = some (testRecord .pwm .idle) ∧
       s.pins[(5 : Pin)].config.role ≠ .cueInput) ∧
    (let s := serve (withRole (world (testRecord .pwm .idle)) 5 .cueInput 4 none) 1 .link linkParams
     s.carries 1 .link 5 linkParams ∧ s.record? h3 = some (testRecord .pwm .idle) ∧
       s.pins[(5 : Pin)].config.role = .cueInput ∧ s.granted 1 5 = false) :=
  ⟨served_all 1 .link (by decide) _ _ (by decide), ⟨serve_carries _ _ _ _ (by decide), by decide, by decide⟩,
    serve_carries _ _ _ _ (by decide), by decide, by decide, by decide⟩

theorem witness_UnlinkAndSetLinkRequests :
    ((serve State.reset 1 .unlink [64]).carries 1 .unlink 5 [64] ∧ 63 < (64 : Byte).toNat) ∧
    ((serve State.reset 1 .setLink [0, 2]).carries 1 .setLink 5 [0, 2] ∧ 1 < (2 : Byte).toNat) ∧
    (∀ x ∈ [(ReqCode.unlink, [toByte (63 : LinkIx).val]), (.setLink, [toByte (63 : LinkIx).val, toByte true.toNat])],
      (serve State.reset 1 x.1 x.2).carries 1 x.1 5 x.2 ∧
        (serve (fullPool linkState) 1 x.1 x.2).carries 1 x.1 5 x.2 ∧
        (serve (fullPool linkState) 2 x.1 x.2).carries 2 x.1 5 x.2) ∧
    State.reset.links[(63 : LinkIx)] = none ∧ (fullPool linkState).links[(63 : LinkIx)] = some testLink ∧
    (fullPool linkState).record? testLink.target = some (testRecord .pwm .idle) ∧
    (testRecord .pwm .idle).owner = 1 ∧ (testRecord .pwm .idle).owner ≠ 2 := by
  refine ⟨⟨serve_carries _ _ _ _ (by decide), by decide⟩, ⟨serve_carries _ _ _ _ (by decide), by decide⟩, ?_, by decide,
    by decide, by decide, rfl, by decide⟩
  intro x hx
  simp only [List.mem_cons, List.not_mem_nil, or_false] at hx
  rcases hx with rfl | rfl <;>
    exact ⟨serve_carries _ _ _ _ (by decide), serve_carries _ _ _ _ (by decide), serve_carries _ _ _ _ (by decide)⟩

/-- MOVE to none, and to GP23: while it is not OUTPUT, not granted, claimed, and free. -/
theorem witness_MoveChangesClaimAndHeldMark :
    (let p := wordBytes h3.value ++ [0xFF]
     let s := serve (world (testRecord .pwm .idle)) 1 .move p
     s.record? h3 = some (testRecord .pwm .idle) ∧ s.carries 1 .move 5 p ∧ (testRecord .pwm .idle).pin = none) ∧
    (let p := wordBytes h3.value ++ [toByte (23 : Pin).val]
     let s (role : Role) (grants : BitVec 4) (claim : Option Handle) :=
       serve (withRole (world (testRecord .pwm .idle)) 23 role grants claim) 1 .move p
     ∀ x ∈ [(Role.off, (0 : BitVec 4), (none : Option Handle)), (.output, 0, none), (.output, 2, some ⟨0, 4⟩),
         (.output, 2, none)],
       (s x.1 x.2.1 x.2.2).record? h3 = some (testRecord .pwm .idle) ∧ (s x.1 x.2.1 x.2.2).carries 1 .move 5 p ∧
         (s x.1 x.2.1 x.2.2).pins[(23 : Pin)].config.role = x.1 ∧
         (s x.1 x.2.1 x.2.2).granted 1 23 = (x.2.1 == 2) ∧ (s x.1 x.2.1 x.2.2).pins[(23 : Pin)].claim = x.2.2) := by
  refine ⟨⟨by decide, serve_carries _ _ _ _ (by decide), rfl⟩, ?_⟩
  intro p s x hx
  simp only [List.mem_cons, List.not_mem_nil, or_false] at hx
  rcases hx with rfl | rfl | rfl | rfl <;>
    exact ⟨by decide, serve_carries _ _ _ _ (by decide), by decide, by decide, by decide⟩

/-- The parameters of a CONFIG_PIN of GP23 to COUNT_INPUT in group B. -/
def configParams : List Byte :=
  [toByte (23 : Pin).val, toByte Role.countInput.code, 0, 1, 2, 2, toByte (groupCode (some .b))]

/-- A pin that is free to change role; a claimed pin, a link source and a counted pin. -/
theorem witness_ConfigPinReplacesConfiguration :
    (serve State.reset 0 .configPin configParams).carries 0 .configPin 5 configParams ∧
    State.reset.pins[(23 : Pin)].config.role = .off ∧ State.reset.pins[(23 : Pin)].claim = none ∧
    (let s := withRole (world { testRecord .pwm .idle with pin := some 23 }) 23 .output 2 (some h3)
     s.pins[(23 : Pin)].claim = some h3 ∧ s.record? h3 = some { testRecord .pwm .idle with pin := some 23 } ∧
       s.pins[(23 : Pin)].config.role ≠ .countInput) ∧
    (linkState.setLinkList (.pin 5) [0]).pins[(5 : Pin)].links ≠ [] ∧
    (State.reset.setBase 3 { TimeBase.initial with source := .pin 23 .falling }).bases[(3 : Base)].source =
      .pin 23 .falling :=
  ⟨serve_carries _ _ _ _ (by decide), by decide, by decide, by decide, by decide, by decide⟩

/-- Each field of CONFIG_PIN one above its last value. -/
theorem witness_ConfigPinReplacesConfiguration_fields :
    ∀ p ∈ [([24, 0, 0, 0, 0, 0, 0] : List Byte), [23, 4, 0, 0, 0, 0, 0], [23, 0, 2, 0, 0, 0, 0], [23, 0, 0, 3, 0, 0, 0],
        [23, 0, 0, 0, 3, 0, 0], [23, 0, 0, 0, 0, 3, 0], [23, 0, 0, 0, 0, 0, 3]],
      (serve State.reset 0 .configPin p).carries 0 .configPin 5 p ∧
        (let b (i : Nat) : Nat := (byteAt p i).toNat
         23 < b 0 ∨ 3 < b 1 ∨ 1 < b 2 ∨ 2 < b 3 ∨ 2 < b 4 ∨ 2 < b 5 ∨ 2 < b 6) :=
  served_all 0 .configPin (by decide) _ _ (by decide)

/-- Agents 0 and 4; an entry with bit 5 set, with bit 6 set, with pin 24, and a pin named twice. -/
theorem witness_GrantPinsIsAllOrNone_fields :
    ∀ p ∈ [([0] : List Byte), [4], [1, 0x20], [1, 0x40], [1, 24], [3, 23, 151]],
      (serve State.reset 0 .grantPins p).carries 0 .grantPins 5 p ∧
        (byteAt p 0 = 0 ∨ 3 < (byteAt p 0).toNat ∨
          (∃ e ∈ p.tail, e.toNat / 32 % 4 ≠ 0 ∨ 23 < e.toNat % 32) ∨ ¬ (p.tail.map fun e => e.toNat % 32).Nodup) :=
  served_all 0 .grantPins (by decide) _ _ (by decide)

/-- An empty set of pins, and a withdrawal of the grant that a claim needs. -/
theorem witness_GrantPinsIsAllOrNone :
    (serve State.reset 0 .grantPins [toByte (3 : Agent).val]).carries 0 .grantPins 5 [toByte (3 : Agent).val] ∧
    (let p := [toByte (1 : Agent).val, toByte ((23 : Pin).val + 128 * false.toNat)]
     let r := { testRecord .pwm .idle with pin := some 23 }
     let s := serve (withRole (world r) 23 .output 2 (some h3)) 0 .grantPins p
     s.carries 0 .grantPins 5 p ∧ s.pins[(23 : Pin)].claim = some h3 ∧ s.record? h3 = some r ∧ r.owner = 1) :=
  ⟨serve_carries _ _ _ _ (by decide), serve_carries _ _ _ _ (by decide), by decide, by decide, rfl⟩

theorem witness_EdgeIsHandedOnByRole :
    ∀ x ∈ [Role.off, .output, .cueInput, .countInput],
      let s := withRole State.reset 23 x 0 none
      s.resetn = .high ∧ s.pins[(23 : Pin)].filtered ≠ edgeLevel .rising ∧ s.pins[(23 : Pin)].config.role = x := by
  decide

theorem witness_PinShowsResolvedLevel :
    (let s := withRole (world { testRecord .pwm .running with pin := some 0 }) 0 .output 2 (some h3)
     s.pins[(0 : Pin)].config.role = .output ∧ s.pins[(0 : Pin)].config.group = none ∧
       s.pins[(0 : Pin)].claim = some h3 ∧ s.record? h3 = some { testRecord .pwm .running with pin := some 0 }) ∧
    (let s := (withRole State.reset 0 .output 0 none).setGroup .b { InhibitGroup.initial with state := .latched }
     let e := s.pins[(0 : Pin)]
     let t := s.setPin 0 { e with config := { e.config with group := some .b, pull := .up }, board := none }
     t.pins[(0 : Pin)].config.group = some .b ∧ (t.group .b).state ≠ .clear ∧ t.shown 0 = .released ∧
       t.pins[(0 : Pin)].config.pull = .up) := by decide

/-- TB4 in each request; and a source, a CORE base's pin and edge, and a PIN base's pin, edge and divisor, that R30
refuses. -/
theorem witness_TimeBaseRequests_fields :
    (∀ p ∈ [([4, 0, 0, 0, 255, 0] : List Byte), [3, 2, 0, 0, 255, 0], [3, 0, 0, 0, 23, 0], [3, 0, 0, 0, 255, 1],
        [3, 1, 0, 0, 24, 1], [3, 1, 0, 0, 23, 0], [3, 1, 0, 0, 23, 3], [3, 1, 1, 0, 23, 1], [3, 1, 0, 1, 23, 1]],
      (serve State.reset 0 .setTimebase p).carries 0 .setTimebase 5 p ∧
        (let b (i : Nat) : Byte := byteAt p i
         3 < (b 0).toNat ∨ 1 < (b 1).toNat ∨ (b 1 = 0 ∧ (b 4 ≠ 0xFF ∨ b 5 ≠ 0)) ∨
           (b 1 = 1 ∧ (23 < (b 4).toNat ∨ (b 5 ≠ 1 ∧ b 5 ≠ 2) ∨ b 2 ≠ 0 ∨ b 3 ≠ 0)))) ∧
    (serve State.reset 0 .runTimebase [4]).carries 0 .runTimebase 5 [4] ∧
    (serve State.reset 0 .haltTimebase [4]).carries 0 .haltTimebase 5 [4] ∧
    (serve State.reset 0 .setDivisor [4, 0, 0]).carries 0 .setDivisor 5 [4, 0, 0] ∧ 3 < (4 : Byte).toNat :=
  ⟨served_all 0 .setTimebase (by decide) _ _ (by decide), serve_carries _ _ _ _ (by decide),
    serve_carries _ _ _ _ (by decide), serve_carries _ _ _ _ (by decide), by decide⟩

/-- The parameters of SET_TIMEBASE of TB3: CORE with divisor 65536, and GP23's falling edge. -/
theorem witness_TimeBaseRequests :
    (1 ≤ 65536 ∧ 65536 ≤ 65536) ∧
    (∀ x ∈ [(ReqCode.setTimebase, [toByte (3 : Base).val, 0] ++ wordBytes (65536 - 1) ++ [0xFF, 0]),
        (.setTimebase, [toByte (3 : Base).val, 1, 0, 0, toByte (23 : Pin).val, 2]),
        (.runTimebase, [toByte (3 : Base).val]), (.haltTimebase, [toByte (3 : Base).val]),
        (.setDivisor, [toByte (3 : Base).val] ++ wordBytes (1 - 1))],
      (serve State.reset 0 x.1 x.2).carries 0 x.1 5 x.2) ∧
    State.reset.bases[(3 : Base)].running = false ∧ State.reset.bases[(3 : Base)].source = .core ∧
    State.reset.pins[(23 : Pin)].config.role ≠ .countInput ∧
    (withRole State.reset 23 .countInput 0 none).pins[(23 : Pin)].config.role = .countInput ∧
    (State.reset.setBase 3 { TimeBase.initial with running := true }).bases[(3 : Base)].running = true ∧
    (State.reset.setBase 3 { TimeBase.initial with source := .pin 23 .falling }).bases[(3 : Base)].source ≠ .core := by
  refine ⟨by decide, ?_, by decide, by decide, by decide, by decide, by decide, by decide⟩
  intro x hx
  exact serve_carries _ _ _ _ fun _ => rfl

theorem witness_InhibitRequests :
    ((serve State.reset 0 .configInhibit [0, 0, 0]).carries 0 .configInhibit 5 [0, 0, 0] ∧ (0 : Byte) ≠ 1 ∧
      (0 : Byte) ≠ 2) ∧
    (serve State.reset 0 .configInhibit [1, 2, 0]).carries 0 .configInhibit 5 [1, 2, 0] ∧
    (serve State.reset 0 .configInhibit [2, 1, 2]).carries 0 .configInhibit 5 [2, 1, 2] ∧
    (serve State.reset 0 .clearInhibit [3]).carries 0 .clearInhibit 5 [3] ∧
    (serve State.reset 0 .configInhibit [2, toByte true.toNat, toByte Policy.latched.code]).carries 0 .configInhibit 5
      [2, toByte true.toNat, toByte Policy.latched.code] ∧
    (serve State.reset 0 .clearInhibit [1]).carries 0 .clearInhibit 5 [1] ∧
    (State.reset.group .a).state ≠ .active ∧
    ((State.reset.setGroup .a { InhibitGroup.initial with state := .active }).group .a).state = .active :=
  ⟨⟨serve_carries _ _ _ _ (by decide), by decide, by decide⟩, serve_carries _ _ _ _ (by decide),
    serve_carries _ _ _ _ (by decide), serve_carries _ _ _ _ (by decide), serve_carries _ _ _ _ (by decide),
    serve_carries _ _ _ _ (by decide), by decide, by decide⟩

theorem witness_LineEventsMoveGroupState :
    ∀ line ∈ [false, true], ∀ enabled ∈ [false, true],
      let s := State.reset.setGroup .a { InhibitGroup.initial with line := line, enabled := enabled }
      s.resetn = .high ∧ (s.group .a).line = line ∧ (s.group .a).enabled = enabled ∧
        ({ s with resetn := .low } : State).resetn ≠ .high := by decide

/-- R115: while RESETn is low an input change moves no line level; the release takes the level as it then stands, and
with it no group goes ACTIVE. -/
theorem test_line_taken_at_release :
    (match exec (.assertion .a) { State.reset with resetn := .low } with
      | .next t =>
        match exec .resetnRelease t with
        | .next u => !t.groupA.line && u.groupA.line && u.groupA.state == .clear
        | _ => false
      | _ => false) = true := by decide

/-- A record whose claimed pin has group A. -/
theorem witness_GroupTransitionHoldsAndReleases :
    let r := { testRecord .pwm .running with pin := some 0 }
    let s := withRole (world r) 0 .output 2 (some h3)
    let t := s.setPin 0 { s.pins[(0 : Pin)] with config := { s.pins[(0 : Pin)].config with group := some .a } }
    t.slots[(3 : SlotIx)].record = some r ∧ r.pin = some 0 ∧ t.pins[(0 : Pin)].config.group = some .a ∧
      (t.group .a).state = .clear ∧
      ((t.setGroup .a { InhibitGroup.initial with state := .active }).group .a).state ≠ .clear := by decide

/-! ## Witnesses: the laws that every step keeps -/

/-- What holds of the one record of `world` holds of every record of it. -/
theorem world_all {r : Record} {P : Record → Prop} (h : P r) :
    ∀ (i : SlotIx) (x : Record), (world r).slots[i].record = some x → P x := by
  intro i x hx
  rw [world, setRecord_slots, put_get_fin] at hx
  split at hx
  · cases hx
    exact h
  · have hn : ∀ i : SlotIx, State.reset.slots[i].record = none := by decide
    rw [hn i] at hx
    cases hx

/-- A RUNNING record with a staged copy and a notice pending. -/
def lawRecord : Record :=
  { testRecord .pwm .running with staged := some { period := 1, markA := 0, markB := 0 }, pendingSet := 0x100 }

theorem witness_StepKeepsNoticeSetsNested :
    (world lawRecord).noticesNested ∧ step (world lawRecord) = .next (world lawRecord).clock :=
  ⟨world_all (by unfold Record.noticesNested; decide), rfl⟩

theorem witness_StepKeepsCountersBelowPeriod :
    (world lawRecord).timingSound ∧ step (world lawRecord) = .next (world lawRecord).clock := by
  refine ⟨world_all ⟨by decide, fun t h => ?_⟩, rfl⟩
  cases h
  decide

/-- The engine at a request of agent 1. -/
theorem witness_StepKeepsOneOperationAtATime :
    let s := { serve (world lawRecord) 1 .ping [] with pending := [.ping] }
    s.engineAgrees ∧ step s = .next (({ s with pending := [] } : State).carryOut .ping pingBody) := by
  intro s
  refine ⟨⟨fun a h => (by cases h), fun a => ?_, fun a => ?_⟩, rfl⟩
  · have hp : ∀ a : Agent, (serve (world lawRecord) 1 .ping []).ports[a].request =
        if a = 1 then .active ⟨5, 0x03, []⟩ else .empty := by decide
    show (∃ f, (serve (world lawRecord) 1 .ping []).ports[a].request = .active f) ↔ _
    rw [hp]
    constructor
    · rintro ⟨f, hf⟩
      split at hf
      · rename_i h
        exact ⟨.chosen, by rw [h]; rfl⟩
      · cases hf
    · rintro ⟨w, hw⟩
      injection hw with h
      injection h with h
      exact ⟨⟨5, 0x03, []⟩, by rw [if_pos h.symm]⟩
  · have hp : ∀ a : Agent, (serve (world lawRecord) 1 .ping []).ports[a].request ≠ .sweepActive := by decide
    constructor
    · exact fun h => absurd h (hp a)
    · rintro ⟨w, hw⟩
      injection hw with h
      injection h with _ h
      cases h

/-- A record that claims GP0. -/
theorem witness_StepKeepsClaimsAgreed :
    let s := withRole (world { lawRecord with pin := some 0 }) 0 .output 2 (some h3)
    s.claimsAgree ∧ step s = .next s.clock := by
  intro s
  refine ⟨⟨?_, ?_⟩, rfl⟩
  · have hc : ∀ p : Pin, (withRole (world { lawRecord with pin := some 0 }) 0 .output 2 (some h3)).pins[p].claim =
        if p = 0 then some h3 else none := by decide
    intro p h hp
    rw [hc] at hp
    split at hp
    · rename_i h0
      cases hp
      rw [h0]
      exact ⟨by decide, { lawRecord with pin := some 0 }, by decide, rfl⟩
    · cases hp
  · intro i r p hi hp
    have hw : (withRole (world { lawRecord with pin := some 0 }) 0 .output 2 (some h3)).slots =
      (world { lawRecord with pin := some 0 }).slots := rfl
    rw [hw] at hi
    rw [world, setRecord_slots, put_get_fin] at hi
    split at hi
    · rename_i h3i
      cases hi
      cases hp
      rw [h3i]
      decide
    · have hn : ∀ i : SlotIx, State.reset.slots[i].record = none := by decide
      rw [hn i] at hi
      cases hi

end Sys2Proof.Tests
end

section
/-! PROOFS. What a request that passes checks 1 to 4 comes to, said of the command that carries it out (R157 to R161),
and the fields of requests that several bodies read. -/

namespace Sys2Proof.Machine

variable {s t : State} {a : Agent} {c : ReqCode} {q : Byte} {p d : List Byte} {st : Status}
  {body : Agent → List Byte → State → Except Status Reply}

/-- R161: a request whose body answers ends with the answer posted. -/
theorem carryOut_answers (h : s.carries a c q p) (hl : c.lengthOk p = true)
    (hb : body a p s = .ok (.answered t d)) :
    (.next (s.carryOut c body) : Host.Outcome State Fault Refusal) = t.answers a c q d := by
  rw [carryOut_carries h hl, hb, conclude_answered, State.answers]

/-- R160: a request whose body refuses ends with the refusal posted, in the state the engine found. -/
theorem carryOut_refuses (h : s.carries a c q p) (hl : c.lengthOk p = true) (hb : body a p s = .error st) :
    (.next (s.carryOut c body) : Host.Outcome State Fault Refusal) = s.refuses a c q st := by
  rw [carryOut_carries h hl, hb, conclude_error, State.refuses]

/-- R158: a check before the rest of a body. -/
theorem require_bind (st : Status) (ok : Bool) (g : Unit → Except Status Reply) :
    (require st ok >>= g) = if ok = true then g () else .error st := by
  cases ok <;> rfl

/-- R178: parameters that are one handle field name its handle. -/
theorem handleField_eq (h : Handle) : Handle.ofWord (wordAt (wordBytes h.value) 0) = some h := by
  rw [wordBytes_cons, wordAt_bytes, Handle.ofWord_value]

/-- R178: a base field above 3 names no base. -/
theorem baseOfByte_none {x : Byte} (h : 3 < x.toNat) : baseOfByte x = none :=
  dif_neg (by omega)

end Sys2Proof.Machine
end

section
/-! PROOFS. START, ARM and STOP (R52 to R54). -/

namespace Sys2Proof.Machine

variable {s : State} {a : Agent} {h : Handle} {r : Record}

/-- R52: START of a record that the requester may change. -/
theorem startBody_eq (hr : s.record? h = some r) (ho : a = 0 ∨ r.owner = a) :
    startBody a (wordBytes h.value) s =
      if r.state = .running then .error .recordBusy
      else .ok (.answered
        ((s.setRecord h.slot (r.begin.1.offerAll r.begin.2)).walkEvents h (eventsOf r.begin.2)) []) := by
  simp [startBody, handleField_eq, ownRecord_ok hr ho, require_bind, State.occur, settled]

/-- R53: ARM of a record that the requester may change. -/
theorem armBody_eq (hr : s.record? h = some r) (ho : a = 0 ∨ r.owner = a) :
    armBody a (wordBytes h.value) s =
      if r.state = .running then .error .recordBusy else .ok (.answered (s.setRecord h.slot r.armed) []) := by
  simp [armBody, handleField_eq, ownRecord_ok hr ho, require_bind]

/-- R53: an ARMED record is unchanged by ARM. -/
theorem armed_of_armed (h : r.state = .armed) : r.armed = r :=
  if_pos h

/-- R53: what ARM makes of a record that is not ARMED. -/
theorem armed_of_not_armed (h : r.state ≠ .armed) :
    r.armed = { r with state := .armed, counter := 0, phase := .waitA, output := r.restLevel } :=
  if_neg h

/-- R61: a commit raises no record event. -/
theorem eventsOf_commit (r : Record) : eventsOf r.commit.2 = [] := by
  unfold Record.commit
  split <;> rfl

/-- R123: the paying of an owed release raises no record event. -/
theorem eventsOf_payRelease (r : Record) : eventsOf r.payRelease.2 = [] := by
  unfold Record.payRelease
  split <;> rfl

/-- R54, R40: a stop raises at most COMMITTED and RELEASED, which go to no link. -/
theorem eventsOf_halt (r : Record) : eventsOf r.halt.2 = [] := by
  by_cases hi : r.state = .idle
  · simp [Record.halt, hi, eventsOf]
  · have hocc : r.halt.2 = r.commit.2 ++ r.commit.1.payRelease.2 := by simp [Record.halt, hi, Record.toIdle]
    have happ : ∀ x y, eventsOf (x ++ y) = eventsOf x ++ eventsOf y := fun _ _ => List.filterMap_append
    rw [hocc, happ, eventsOf_commit, eventsOf_payRelease, List.append_nil]

/-- R54: STOP of a record that the requester may change, in any state. -/
theorem stopBody_eq (hr : s.record? h = some r) (ho : a = 0 ∨ r.owner = a) :
    stopBody a (wordBytes h.value) s =
      .ok (.answered (s.setRecord h.slot (r.halt.1.offerAll r.halt.2)) []) := by
  simp [stopBody, handleField_eq, ownRecord_ok hr ho, State.occur, settled, eventsOf_halt, State.walkEvents]

/-- Settles O35: each request's body (`startBody_eq`, `armBody_eq`, `stopBody_eq`), posted by the engine. -/
theorem startArmAndStopRequests : Obligations.StartArmAndStopRequests := by
  unfold Obligations.StartArmAndStopRequests
  intro s a q h r hr ho
  refine ⟨?start, ?arm, ?stop⟩
  case start =>
    exact fun hc => ⟨fun hn => carryOut_answers hc rfl ((startBody_eq hr ho).trans (if_neg hn)),
      fun hrun => carryOut_refuses hc rfl ((startBody_eq hr ho).trans (if_pos hrun))⟩
  case arm =>
    intro hc
    have hans (hn : r.state ≠ .running) := carryOut_answers hc rfl ((armBody_eq hr ho).trans (if_neg hn))
    refine ⟨fun hid => ?_, fun harm => ?_, fun hrun => ?_⟩
    · obtain ⟨hn, hna⟩ : r.state ≠ .running ∧ r.state ≠ .armed := by rcases hid with hid | hid <;> simp [hid]
      exact armed_of_not_armed hna ▸ hans hn
    · exact armed_of_armed harm ▸ hans (by simp [harm])
    · exact carryOut_refuses hc rfl ((armBody_eq hr ho).trans (if_pos hrun))
  case stop => exact fun hc => carryOut_answers hc rfl (stopBody_eq hr ho)

end Sys2Proof.Machine
end

section
/-! PROOFS. SET_TIMEBASE, RUN_TIMEBASE, HALT_TIMEBASE and SET_DIVISOR (R30 to R33). -/

namespace Sys2Proof.Machine

variable {s : State} {a : Agent} {b : Base} {p : List Byte} {d : Nat}

/-! ## Reading the fields -/

/-- R178: a divisor that a request carries is read back. -/
theorem divisorAt_wordBytes (h1 : 1 ≤ d) (hd : d ≤ 65536) (l : List Byte) :
    divisorAt (wordBytes (d - 1) ++ l) 0 = d := by
  rw [divisorAt, wordAt_wordBytes, BitVec.toNat_ofNat]
  omega

/-- R30: a divisor field other than 0 is a divisor above 1. -/
theorem divisorAt_ne_one {low high : Byte} (h : low ≠ 0 ∨ high ≠ 0) (l : List Byte) :
    divisorAt (low :: high :: l) 0 ≠ 1 := by
  simp only [divisorAt, wordAt, byteAt_zero, byteAt_succ, BitVec.toNat_ofNat]
  bv_omega

/-- R30: the fields of a PIN source that is in range. -/
theorem sourceOfFields_pin (pin : Pin) (e : EdgeDir) :
    sourceOfFields 1 1 (toByte pin.val) (toByte (edgeCode e)) = some (.pin pin e) := by
  simp [sourceOfFields]

/-- R30: an edge field that is neither RISE nor FALL names no edge. -/
theorem edgeOfByte_none {e : Byte} (h : e ≠ 1 ∧ e ≠ 2) : edgeOfByte e = none := by
  unfold edgeOfByte
  split
  · bv_omega
  · bv_omega
  · rfl

/-- R30: the source, pin, edge and divisor fields that are refused. -/
theorem sourceOfFields_none {source pin edge : Byte}
    (h : 1 < source.toNat ∨ (source = 0 ∧ (pin ≠ 0xFF ∨ edge ≠ 0)) ∨
      (source = 1 ∧ (23 < pin.toNat ∨ (edge ≠ 1 ∧ edge ≠ 2) ∨ d ≠ 1))) :
    sourceOfFields source d pin edge = none := by
  rcases h with hs | ⟨rfl, hcore⟩ | ⟨rfl, hpin | hedge | hd⟩
  · unfold sourceOfFields
    split
    · omega
    · omega
    · rfl
  · exact if_neg (by tauto)
  · have hp : pinOfNat pin.toNat = none := dif_neg (by omega)
    simp [sourceOfFields, hp]
  · simp [sourceOfFields, edgeOfByte_none hedge]
  · rcases hp : pinOfNat pin.toNat with _ | x
    · simp [sourceOfFields, hp]
    · simp only [sourceOfFields, hp, if_neg hd]
      cases edgeOfByte edge <;> rfl

/-! ## The bodies -/

/-- R30: SET_TIMEBASE with a field out of its range. -/
theorem setTimebaseBody_badValue
    (h : baseOfByte (byteAt p 0) = none ∨
      sourceOfFields (byteAt p 1) (divisorAt p 2) (byteAt p 4) (byteAt p 5) = none) :
    setTimebaseBody a p s = .error .badValue := by
  rcases hb : baseOfByte (byteAt p 0) with _ | b
  · simp [setTimebaseBody, hb]
  · have hs := h.resolve_left (by simp [hb])
    simp [setTimebaseBody, hb, hs]

/-- R30: SET_TIMEBASE with its fields in range: the base must be STOPPED, and then the source countable. -/
theorem setTimebaseBody_eq {src : Source} (hb : baseOfByte (byteAt p 0) = some b)
    (hs : sourceOfFields (byteAt p 1) (divisorAt p 2) (byteAt p 4) (byteAt p 5) = some src) :
    setTimebaseBody a p s =
      if s.bases[b].running = false ∧ s.countable src = true then
        .ok (.answered (s.setBase b { s.bases[b] with source := src, divisor := divisorAt p 2 }) [])
      else .error .badState := by
  simp [setTimebaseBody, hb, hs, require_bind, ite_and]

/-- R30: a source is countable when its count pin, if any, has role COUNT_INPUT. -/
theorem countable_iff {src : Source} :
    s.countable src = true ↔ ∀ pin e, src = .pin pin e → s.pins[pin].config.role = .countInput := by
  cases src <;> simp [State.countable]

/-- R31: RUN_TIMEBASE of a base in range. -/
theorem runTimebaseBody_eq (s : State) (a : Agent) (b : Base) :
    runTimebaseBody a [toByte b.val] s = .ok (.answered (s.setBase b s.bases[b].run) []) := by
  simp [runTimebaseBody]

/-- R32: HALT_TIMEBASE of a base in range. -/
theorem haltTimebaseBody_eq (s : State) (a : Agent) (b : Base) :
    haltTimebaseBody a [toByte b.val] s = .ok (.answered (s.setBase b s.bases[b].halt) []) := by
  simp [haltTimebaseBody]

/-- R33: SET_DIVISOR of a base in range, with a divisor in range. -/
theorem setDivisorBody_eq (s : State) (a : Agent) (b : Base) (h1 : 1 ≤ d) (hd : d ≤ 65536) :
    setDivisorBody a (toByte b.val :: wordBytes (d - 1)) s =
      if s.bases[b].source = .core then .ok (.answered (s.setBase b { s.bases[b] with divisor := d }) [])
      else .error .badState := by
  have hdiv : divisorAt (toByte b.val :: wordBytes (d - 1)) 1 = d := divisorAt_wordBytes h1 hd []
  simp [setDivisorBody, hdiv, require_bind]

/-- R31: a RUNNING base is left as it is. -/
theorem run_of_running {t : TimeBase} (h : t.running = true) : t.run = t :=
  if_pos h

/-- R31: a STOPPED CORE base begins an interval with the divisor in force. -/
theorem run_of_stopped_core {t : TimeBase} (h : t.running = false) (hs : t.source = .core) :
    t.run = { t with running := true, interval := some { count := 0, inForce := t.divisor } } := by
  simp [TimeBase.run, h, hs]

/-- R31: a STOPPED PIN base has no interval. -/
theorem run_of_stopped_pin {t : TimeBase} (h : t.running = false) (hs : t.source ≠ .core) :
    t.run = { t with running := true, interval := none } := by
  rcases hsrc : t.source with _ | ⟨pin, e⟩
  · exact absurd hsrc hs
  · simp [TimeBase.run, h, hsrc]

/-- A base replaced by itself. -/
theorem setBase_self (s : State) (b : Base) : s.setBase b s.bases[b] = s := by
  have hput : put s.bases b s.bases[b] = s.bases := table_ext fun i => by
    rw [put_get_fin]
    split
    · next h => rw [h]
    · rfl
  simp only [State.setBase, hput]

/-! ## The statement, request by request -/

/-- R30, R178: the parameter bytes of SET_TIMEBASE for a base, a source and the divisor of a CORE source. -/
def setTimebaseParams (b : Base) (d : Nat) : Source → List Byte
  | .core => [toByte b.val, 0] ++ wordBytes (d - 1) ++ [0xFF, 0]
  | .pin pin e => [toByte b.val, 1, 0, 0, toByte pin.val, match e with | .rising => 1 | .falling => 2]

/-- R30: the source and the divisor that those bytes give the base. -/
theorem setTimebaseParams_fields (h1 : 1 ≤ d) (hd : d ≤ 65536) (b : Base) (src : Source) :
    let p := setTimebaseParams b d src
    baseOfByte (byteAt p 0) = some b ∧ divisorAt p 2 = (if src = .core then d else 1) ∧
      sourceOfFields (byteAt p 1) (divisorAt p 2) (byteAt p 4) (byteAt p 5) = some src := by
  rcases src with _ | ⟨pin, e⟩
  · exact ⟨baseOfByte_toByte b, divisorAt_wordBytes h1 hd [0xFF, 0], rfl⟩
  · refine ⟨baseOfByte_toByte b, rfl, ?_⟩
    cases e
    · exact sourceOfFields_pin pin .rising
    · exact sourceOfFields_pin pin .falling

/-- R30: SET_TIMEBASE of a base and a source in range. -/
theorem setTimebaseBody_params (h1 : 1 ≤ d) (hd : d ≤ 65536) (s : State) (a : Agent) (b : Base) (src : Source) :
    setTimebaseBody a (setTimebaseParams b d src) s =
      if s.bases[b].running = false ∧ s.countable src = true then
        .ok (.answered (s.setBase b
          { s.bases[b] with source := src, divisor := if src = .core then d else 1 }) [])
      else .error .badState := by
  obtain ⟨hb, hdiv, hs⟩ := setTimebaseParams_fields h1 hd b src
  rw [setTimebaseBody_eq hb hs, hdiv]

/-- R30: SET_TIMEBASE refuses a base above 3, and a source, pin, edge or divisor out of its range. -/
theorem setTimebaseBody_refused {base source low high pin edge : Byte}
    (h : 3 < base.toNat ∨ 1 < source.toNat ∨ (source = 0 ∧ (pin ≠ 0xFF ∨ edge ≠ 0)) ∨
      (source = 1 ∧ (23 < pin.toNat ∨ (edge ≠ 1 ∧ edge ≠ 2) ∨ low ≠ 0 ∨ high ≠ 0))) :
    setTimebaseBody a [base, source, low, high, pin, edge] s = .error .badValue := by
  refine setTimebaseBody_badValue (h.imp baseOfByte_none fun hsrc => sourceOfFields_none ?_)
  exact hsrc.imp_right (Or.imp_right (And.imp_right (Or.imp_right (Or.imp_right
    fun hdiv => divisorAt_ne_one hdiv [pin, edge]))))

/-- Settles O52: each request's body on the bytes that R179 gives it, posted by the engine. -/
theorem timeBaseRequests : Obligations.TimeBaseRequests := by
  unfold Obligations.TimeBaseRequests
  intro s q
  refine ⟨?fields, ?bases, fun b d h1 hd => ⟨?set, ?run, ?halt, ?divisor⟩⟩
  case fields => exact fun _ _ _ _ _ _ hc hbad => carryOut_refuses hc rfl (setTimebaseBody_refused hbad)
  case bases =>
    intro base low high hbase
    have hb := baseOfByte_none hbase
    exact ⟨fun hc => carryOut_refuses hc rfl (by simp [runTimebaseBody, hb]),
      fun hc => carryOut_refuses hc rfl (by simp [haltTimebaseBody, hb]),
      fun hc => carryOut_refuses hc rfl (by simp [setDivisorBody, hb])⟩
  case set =>
    intro src hc
    have hc : s.carries 0 .setTimebase q (setTimebaseParams b d src) := hc
    have hl : ReqCode.lengthOk .setTimebase (setTimebaseParams b d src) = true := by cases src <;> rfl
    have hbody := setTimebaseBody_params h1 hd s 0 b src
    refine ⟨fun hrun => carryOut_refuses hc hl (hbody.trans (if_neg ?_)),
      fun _ ⟨pin, e, hsrc, hrole⟩ => carryOut_refuses hc hl (hbody.trans (if_neg ?_)),
      fun hstop hcount => carryOut_answers hc hl (hbody.trans (if_pos ⟨hstop, countable_iff.2 hcount⟩))⟩
    · exact fun ⟨hstop, _⟩ => Bool.false_ne_true (hstop.symm.trans hrun)
    · exact fun ⟨_, hok⟩ => hrole (countable_iff.1 hok pin e hsrc)
  case run =>
    intro hc
    have hans := carryOut_answers hc rfl (runTimebaseBody_eq s 0 b)
    refine ⟨fun hrun => ?_, fun hstop hcore => ?_, fun hstop hpin => ?_⟩
    · rwa [run_of_running hrun, setBase_self] at hans
    · rwa [run_of_stopped_core hstop hcore] at hans
    · rwa [run_of_stopped_pin hstop hpin] at hans
  case halt => exact fun hc => carryOut_answers hc rfl (haltTimebaseBody_eq s 0 b)
  case divisor =>
    have hbody := setDivisorBody_eq s 0 b h1 hd
    exact fun hc => ⟨fun hcore => carryOut_answers hc rfl (hbody.trans (if_pos hcore)),
      fun hpin => carryOut_refuses hc rfl (hbody.trans (if_neg hpin))⟩

end Sys2Proof.Machine
end

section
/-! PROOFS. UNLINK and SET_LINK (R76, R77). -/

namespace Sys2Proof.Machine

variable {s : State} {a : Agent} {i : LinkIx} {l : Link} {v : Bool} {x y : Byte}

/-! ## The fields and the checks -/

/-- R178: a link index above 63 names no entry. -/
theorem linkOfByte_none (h : 63 < x.toNat) : linkOfByte x = none :=
  dif_neg (by omega)

/-- R178: a yes/no field above 1 is out of its range. -/
theorem bitOfByte_none (h : 1 < x.toNat) : bitOfByte x = none := by
  unfold bitOfByte
  split
  · omega
  · omega
  · rfl

/-- R76, R77: an index that names a link in use. -/
theorem linkInUse_some (hl : s.links[i] = some l) : s.linkInUse i = .ok l := by
  rw [State.linkInUse, hl]

/-- R76, R77: an index that names a free entry. -/
theorem linkInUse_none (hl : s.links[i] = none) : s.linkInUse i = .error .badState := by
  rw [State.linkInUse, hl]

/-- R76: the agents that may change a link. -/
theorem ownsTarget_iff :
    s.ownsTarget a l = true ↔ a = 0 ∨ ∃ r, s.record? l.target = some r ∧ r.owner = a := by
  simp [State.ownsTarget, Option.any_eq_true]

/-- R76: an agent that may not change a link: a stale target is owned by no one. -/
theorem not_ownsTarget (ha : a ≠ 0) (ho : ∀ r, s.record? l.target = some r → r.owner ≠ a) :
    ¬ s.ownsTarget a l = true := by
  rw [ownsTarget_iff]
  rintro (h0 | ⟨r, hr, hown⟩)
  · exact ha h0
  · exact ho r hr hown

/-- R70: a link in use that is freed leaves its source's list. -/
theorem freeLink_of_some (hl : s.links[i] = some l) :
    s.freeLink i = (s.setLinkList l.source ((s.linkList l.source).filter (· != i))).setLink i none := by
  rw [State.freeLink, hl]

/-! ## The bodies -/

/-- R76: UNLINK of an index out of its range. -/
theorem unlinkBody_badValue (h : 63 < x.toNat) : unlinkBody a [x] s = .error .badValue := by
  simp [unlinkBody, linkOfByte_none h]

/-- R76: UNLINK of a free entry. -/
theorem unlinkBody_badState (hl : s.links[i] = none) : unlinkBody a [toByte i.val] s = .error .badState := by
  simp [unlinkBody, linkInUse_none hl]

/-- R76: UNLINK of a link in use. -/
theorem unlinkBody_eq (hl : s.links[i] = some l) :
    unlinkBody a [toByte i.val] s =
      if s.ownsTarget a l = true then .ok (.answered (s.freeLink i) []) else .error .notOwner := by
  simp [unlinkBody, linkInUse_some hl, require_bind]

/-- R77: SET_LINK with an index or an enabled value out of its range. -/
theorem setLinkBody_badValue (h : 63 < x.toNat ∨ 1 < y.toNat) : setLinkBody a [x, y] s = .error .badValue := by
  rcases hx : linkOfByte x with _ | i
  · simp [setLinkBody, hx]
  · have hi : ¬ 63 < x.toNat := fun hx' => by simp [linkOfByte_none hx'] at hx
    simp [setLinkBody, hx, bitOfByte_none (h.resolve_left hi)]

/-- R77: SET_LINK of a free entry. -/
theorem setLinkBody_badState (hl : s.links[i] = none) :
    setLinkBody a [toByte i.val, toByte v.toNat] s = .error .badState := by
  simp [setLinkBody, linkInUse_none hl]

/-- R77: SET_LINK of a link in use. -/
theorem setLinkBody_eq (hl : s.links[i] = some l) :
    setLinkBody a [toByte i.val, toByte v.toNat] s =
      if s.ownsTarget a l = true then .ok (.answered (s.setLink i (some { l with enabled := v })) [])
      else .error .notOwner := by
  simp [setLinkBody, linkInUse_some hl, require_bind]

/-- Settles O45: each request's body (`unlinkBody_eq`, `setLinkBody_eq` and their refusals), posted by the engine. -/
theorem unlinkAndSetLinkRequests : Obligations.UnlinkAndSetLinkRequests := by
  unfold Obligations.UnlinkAndSetLinkRequests
  intro s a q i v
  refine ⟨?fields, ?unlink, ?setLink⟩
  case fields =>
    exact fun x y => ⟨fun hx hc => carryOut_refuses hc rfl (unlinkBody_badValue hx),
      fun hxy hc => carryOut_refuses hc rfl (setLinkBody_badValue hxy)⟩
  case unlink =>
    refine fun hc => ⟨fun hfree => ?free, fun l hl ha ho => ?other, fun l hl ho => ?owner⟩
    case free => exact carryOut_refuses hc rfl (unlinkBody_badState hfree)
    case other => exact carryOut_refuses hc rfl ((unlinkBody_eq hl).trans (if_neg (not_ownsTarget ha ho)))
    case owner =>
      rw [← freeLink_of_some hl]
      exact carryOut_answers hc rfl ((unlinkBody_eq hl).trans (if_pos (ownsTarget_iff.2 ho)))
  case setLink =>
    refine fun hc => ⟨fun hfree => ?free, fun l hl ha ho => ?other, fun l hl ho => ?owner⟩
    case free => exact carryOut_refuses hc rfl (setLinkBody_badState hfree)
    case other => exact carryOut_refuses hc rfl ((setLinkBody_eq hl).trans (if_neg (not_ownsTarget ha ho)))
    case owner => exact carryOut_answers hc rfl ((setLinkBody_eq hl).trans (if_pos (ownsTarget_iff.2 ho)))

end Sys2Proof.Machine
end

section
/-! PROOFS. CONFIG_INHIBIT and CLEAR_INHIBIT (R117, R118). -/

namespace Sys2Proof.Machine

variable {s : State} {a : Agent} {g : Group} {en : Bool} {pol : Policy} {y e w : Byte}

/-! ## The fields -/

/-- R178: an inhibit group field that is neither A nor B names no group. -/
theorem groupOfByte_none (hA : y ≠ 1) (hB : y ≠ 2) : groupOfByte y = none := by
  unfold groupOfByte
  split
  · bv_omega
  · bv_omega
  · rfl

/-- R178: a policy field above 1 names no policy. -/
theorem policyOfByte_none (h : 1 < w.toNat) : Policy.ofByte w = none := by
  unfold Policy.ofByte
  split
  · omega
  · omega
  · rfl

/-! ## The bodies -/

/-- R117: the state that CONFIG_INHIBIT gives a group: CLEAR when it is disabled, the state it has while it stays
enabled, and the state its line level asks for when it becomes enabled. -/
theorem configState_eq (x : InhibitGroup) (en : Bool) :
    x.configState en =
      if en = false then .clear else if x.enabled = true then x.state
      else if x.line = true then .active else .clear := by
  cases en <;> cases hx : x.enabled <;> simp [InhibitGroup.configState, hx]

/-- R118: CONFIG_INHIBIT with a group, an enable or a policy out of its range: the first such field refuses. -/
theorem configInhibitBody_badValue (h : (y ≠ 1 ∧ y ≠ 2) ∨ 1 < e.toNat ∨ 1 < w.toNat) :
    configInhibitBody a [y, e, w] s = .error .badValue := by
  rcases hg : groupOfByte y with _ | g
  · simp [configInhibitBody, hg]
  · have hy : ¬ (y ≠ 1 ∧ y ≠ 2) := fun ⟨hA, hB⟩ => by simp [groupOfByte_none hA hB] at hg
    rcases he : bitOfByte e with _ | en
    · simp [configInhibitBody, hg, he]
    · have hen : ¬ 1 < e.toNat := fun h1 => by simp [bitOfByte_none h1] at he
      simp [configInhibitBody, hg, he, policyOfByte_none ((h.resolve_left hy).resolve_left hen)]

/-- R117: CONFIG_INHIBIT with its fields in range: the enable and the policy are replaced, and then the state is set. -/
theorem configInhibitBody_eq (hg : groupOfByte y = some g) :
    configInhibitBody a [y, toByte en.toNat, toByte pol.code] s =
      .ok (.answered
        ((s.setGroup g { s.group g with enabled := en, policy := pol }).setGroupState g ((s.group g).configState en))
        [toByte en.toNat, toByte pol.code, toByte ((s.group g).configState en).code]) := by
  simp [configInhibitBody, hg]

/-- R118: CLEAR_INHIBIT of any other group. -/
theorem clearInhibitBody_badValue (hA : y ≠ 1) (hB : y ≠ 2) : clearInhibitBody a [y] s = .error .badValue := by
  simp [clearInhibitBody, groupOfByte_none hA hB]

/-- R118: CLEAR_INHIBIT of a group: an ACTIVE one stays as it is. -/
theorem clearInhibitBody_eq (hg : groupOfByte y = some g) :
    clearInhibitBody a [y] s =
      if (s.group g).state = .active then .error .inhibitActive
      else .ok (.answered (s.setGroupState g .clear) []) := by
  simp [clearInhibitBody, hg, require_bind]

/-- Settles O53: each request's body (`configInhibitBody_eq`, `clearInhibitBody_eq` and their refusals), posted by the
engine. -/
theorem inhibitRequests : Obligations.InhibitRequests := by
  unfold Obligations.InhibitRequests
  intro s q g x code
  have hcode : groupOfByte code = some g := by cases g <;> rfl
  refine ⟨?fields, ?config, ?clear⟩
  case fields =>
    exact fun y e w => ⟨fun hbad hc => carryOut_refuses hc rfl (configInhibitBody_badValue hbad),
      fun hA hB hc => carryOut_refuses hc rfl (clearInhibitBody_badValue hA hB)⟩
  case config =>
    intro en pol hc
    have hans := carryOut_answers hc rfl (configInhibitBody_eq hcode)
    rwa [configState_eq] at hans
  case clear =>
    exact fun hc => ⟨fun hact => carryOut_refuses hc rfl ((clearInhibitBody_eq hcode).trans (if_pos hact)),
      fun hn => carryOut_answers hc rfl ((clearInhibitBody_eq hcode).trans (if_neg hn))⟩

end Sys2Proof.Machine
end

section
/-! PROOFS. OPEN (R130). -/

namespace Sys2Proof.Machine

variable {s : State} {a : Agent} {lease : Byte}

/-! ## The body, by the session state it finds -/

/-- R130: OPEN of a session that is not LAPSED: every record is as it was. -/
theorem openBody_not_lapsed (hn : s.sessions[a].state ≠ .lapsed) :
    openBody a [lease] s =
      .ok (.answered (s.setSession a { s.sessions[a] with state := .opened, lease := lease })
        [toByte s.sessions[a].state.code, 0]) := by
  have hb : (s.sessions[a].state == .lapsed) = false := by simpa using hn
  simp only [openBody, hb]
  rfl

/-- R130: OPEN of a LAPSED session: the records of the agent lose their orphan mark, and the answer counts those that
had it. -/
theorem openBody_lapsed (hl : s.sessions[a].state = .lapsed) :
    openBody a [lease] s =
      .ok (.answered
        ((s.mapRecords fun r => if r.owner = a then { r with orphan := false } else r).setSession a
          { s.sessions[a] with state := .opened, lease := lease })
        [2, toByte (s.countRecords (ownedOrphan a))]) := by
  simp only [openBody, hl]
  rfl

/-- Settles O18: the body's two cases (`openBody_not_lapsed`, `openBody_lapsed`), posted by the engine. -/
theorem openSessionOpens : Obligations.OpenSessionOpens := by
  unfold Obligations.OpenSessionOpens
  intro s a q lease hc
  refine ⟨fun hn => ?notLapsed, fun hl => ?lapsed⟩
  case notLapsed =>
    refine (carryOut_answers hc rfl (openBody_not_lapsed hn)).trans
      (congrArg (fun code => State.answers _ a .openSession q [code, 0]) ?stateCode)
    cases s.sessions[a].state <;> rfl
  case lapsed => exact carryOut_answers hc rfl (openBody_lapsed hl)

end Sys2Proof.Machine
end

section
/-! PROOFS. The ATTN line (R150). -/

namespace Sys2Proof.Machine

/-! ## The notices of a set -/

/-- R178: each of the nine bits of a notice set is the bit of a notice. -/
theorem Notice.exists_index_eq {i : Nat} (hi : i < 9) : ∃ n : Notice, n.index = i := by
  match i, hi with
  | 0, _ => exact ⟨.done, rfl⟩
  | 1, _ => exact ⟨.period, rfl⟩
  | 2, _ => exact ⟨.markA, rfl⟩
  | 3, _ => exact ⟨.markB, rfl⟩
  | 4, _ => exact ⟨.committed, rfl⟩
  | 5, _ => exact ⟨.held, rfl⟩
  | 6, _ => exact ⟨.released, rfl⟩
  | 7, _ => exact ⟨.cueLost, rfl⟩
  | 8, _ => exact ⟨.lapsed, rfl⟩

/-- R143: a notice set is not empty exactly when it holds a notice. -/
theorem noticeSet_ne_zero_iff {x : NoticeSet} : x ≠ 0 ↔ ∃ n : Notice, hasNotice x n = true := by
  constructor
  · intro hne
    by_contra hnone
    push Not at hnone
    refine hne (BitVec.eq_of_getLsbD_eq fun i hi => ?_)
    obtain ⟨n, rfl⟩ := Notice.exists_index_eq hi
    simpa [hasNotice] using hnone n
  · rintro ⟨n, hn⟩ rfl
    simp [hasNotice] at hn

/-! ## The line -/

/-- R150: the line over the slots, with a pending set that is not empty. -/
theorem attn_iff_pending_ne_zero {s : State} :
    s.attn = true ↔ ∃ (i : SlotIx) (r : Record), s.slots[i].record = some r ∧
      s.sessions[r.owner].attention = true ∧ r.pendingSet ≠ 0 := by
  simp only [State.attn, List.any_eq_true, List.mem_finRange, true_and]
  refine exists_congr fun i => ?_
  cases s.slots[i].record with
  | none => simp
  | some r => simp

/-- Settles O34: the line is asserted for a pending set that is not empty (`attn_iff_pending_ne_zero`), and such a set
holds a notice (`noticeSet_ne_zero_iff`). -/
theorem attnFollowsPendingNotices : Obligations.AttnFollowsPendingNotices := by
  unfold Obligations.AttnFollowsPendingNotices
  intro s
  simp only [attn_iff_pending_ne_zero, noticeSet_ne_zero_iff]

end Sys2Proof.Machine
end

section
/-! PROOFS. The requests as one family: the body that carries out each code, what a carried out request comes to, and
the cases of a command (R157 to R162). -/

namespace Sys2Proof.Machine

/-! ## The body of each request -/

/-- R157: what the engine does for a request that passes checks 1 to 4, by its code; `exec_command` ties it to
`exec`. -/
def ReqCode.body : ReqCode → Agent → List Byte → State → Except Status Reply
  | .openSession => openBody
  | .closeSession => closeBody
  | .ping => pingBody
  | .setAttention => setAttentionBody
  | .collect => collectBody
  | .create => createBody
  | .retire => retireBody
  | .readRecord => readRecordBody
  | .findByPin => findByPinBody
  | .findByTag => findByTagBody
  | .setTag => setTagBody
  | .setLapse => setLapseBody
  | .setNotices => setNoticesBody
  | .start => startBody
  | .arm => armBody
  | .stop => stopBody
  | .setLevel => setLevelBody
  | .setTiming => setTimingBody
  | .cancelStaged => cancelStagedBody
  | .startGroup => startGroupBody
  | .link => linkBody
  | .unlink => unlinkBody
  | .setLink => setLinkBody
  | .listLinks => listLinksBody
  | .move => moveBody
  | .configPin => configPinBody
  | .grantPins => grantPinsBody
  | .readPins => readPinsBody
  | .setTimebase => setTimebaseBody
  | .runTimebase => runTimebaseBody
  | .haltTimebase => haltTimebaseBody
  | .setDivisor => setDivisorBody
  | .readTimebase => readTimebaseBody
  | .configInhibit => configInhibitBody
  | .clearInhibit => clearInhibitBody
  | .readInhibit => readInhibitBody
  | .adopt => adoptBody
  | .forceClose => forceCloseBody
  | .restart => restartBody
  | .readDevice => readDeviceBody

/-- R157: the command of a request is the carrying out of its body. -/
theorem exec_command (c : ReqCode) (s : State) : exec c.command s = .next (s.carryOut c c.body) := by
  cases c <;> rfl

/-- R158: the command of a request can occur while the engine serves a request of its code. -/
theorem canOccur_command (c : ReqCode) (s : State) : canOccur c.command s = s.serves c := by
  cases c <;> rfl

/-- The cases of a command: the command of a request, whatever its code, and each of the other rows. -/
theorem Instr.byRequest {P : Instr → Prop} (request : ∀ c : ReqCode, P c.command)
    (powerOn : P .powerOn) (resetnAssertion : P .resetnAssertion) (resetnRelease : P .resetnRelease)
    (requestTransaction : ∀ x, P (.requestTransaction x)) (fetchTransaction : ∀ x, P (.fetchTransaction x))
    (statusTransaction : ∀ x, P (.statusTransaction x))
    (headerType0Transaction : ∀ x, P (.headerType0Transaction x)) (unknownRequest : P .unknownRequest)
    (closeVisit : P .closeVisit) (collectVisit : P .collectVisit) (linkFreeVisit : P .linkFreeVisit)
    (findByTagVisit : P .findByTagVisit) (startGroupVisit : P .startGroupVisit)
    (forceCloseVisit : P .forceCloseVisit) (restartVisit : P .restartVisit)
    (leaseExpiry : ∀ a, P (.leaseExpiry a)) (lapseSweep : P .lapseSweep) (lapseSweepVisit : P .lapseSweepVisit)
    (tick : ∀ b, P (.tick b)) (edge : ∀ p d, P (.edge p d)) (assertion : ∀ g, P (.assertion g))
    (deassertion : ∀ g, P (.deassertion g)) (observedLevelChange : ∀ p v, P (.observedLevelChange p v)) :
    ∀ i, P i
  | .powerOn => powerOn
  | .resetnAssertion => resetnAssertion
  | .resetnRelease => resetnRelease
  | .requestTransaction x => requestTransaction x
  | .fetchTransaction x => fetchTransaction x
  | .statusTransaction x => statusTransaction x
  | .headerType0Transaction x => headerType0Transaction x
  | .unknownRequest => unknownRequest
  | .closeVisit => closeVisit
  | .collectVisit => collectVisit
  | .linkFreeVisit => linkFreeVisit
  | .findByTagVisit => findByTagVisit
  | .startGroupVisit => startGroupVisit
  | .forceCloseVisit => forceCloseVisit
  | .restartVisit => restartVisit
  | .leaseExpiry a => leaseExpiry a
  | .lapseSweep => lapseSweep
  | .lapseSweepVisit => lapseSweepVisit
  | .tick b => tick b
  | .edge p d => edge p d
  | .assertion g => assertion g
  | .deassertion g => deassertion g
  | .observedLevelChange p v => observedLevelChange p v
  | .openSession => request .openSession
  | .closeSession => request .closeSession
  | .ping => request .ping
  | .setAttention => request .setAttention
  | .collect => request .collect
  | .create => request .create
  | .retire => request .retire
  | .readRecord => request .readRecord
  | .findByPin => request .findByPin
  | .findByTag => request .findByTag
  | .setTag => request .setTag
  | .setLapse => request .setLapse
  | .setNotices => request .setNotices
  | .start => request .start
  | .arm => request .arm
  | .stop => request .stop
  | .setLevel => request .setLevel
  | .setTiming => request .setTiming
  | .cancelStaged => request .cancelStaged
  | .startGroup => request .startGroup
  | .link => request .link
  | .unlink => request .unlink
  | .setLink => request .setLink
  | .listLinks => request .listLinks
  | .move => request .move
  | .configPin => request .configPin
  | .grantPins => request .grantPins
  | .readPins => request .readPins
  | .setTimebase => request .setTimebase
  | .runTimebase => request .runTimebase
  | .haltTimebase => request .haltTimebase
  | .setDivisor => request .setDivisor
  | .readTimebase => request .readTimebase
  | .configInhibit => request .configInhibit
  | .clearInhibit => request .clearInhibit
  | .readInhibit => request .readInhibit
  | .adopt => request .adopt
  | .forceClose => request .forceClose
  | .restart => request .restart
  | .readDevice => request .readDevice

/-! ## A request whose checks all hold -/

variable {s : State} {a : Agent} {c : ReqCode} {st : Status}

/-- R158: checks in order, where all of them hold. -/
theorem bind_eq_ok {α β : Type} {x : Except Status α} {g : α → Except Status β} {y : β} :
    (x >>= g) = .ok y ↔ ∃ z, x = .ok z ∧ g z = .ok y := by
  cases x <;> simp

theorem require_eq_ok {ok : Bool} {u : Unit} : require st ok = .ok u ↔ ok = true := by
  cases ok <;> simp

theorem field_eq_ok {α : Type} {o : Option α} {x : α} : field o = .ok x ↔ o = some x := by
  cases o <;> simp

theorem current_eq_ok {h : Handle} {r : Record} : s.current h = .ok r ↔ s.record? h = some r := by
  unfold State.current
  cases s.record? h <;> simp

theorem ownRecord_eq_ok {h : Handle} {r : Record} :
    s.ownRecord a h = .ok r ↔ s.record? h = some r ∧ ownedBy a r = true := by
  simp only [State.ownRecord, bind_eq_ok, current_eq_ok, require_eq_ok, pure_ok, Except.ok.injEq]
  constructor
  · rintro ⟨r', hr, _, ho, rfl⟩
    exact ⟨hr, ho⟩
  · exact fun ⟨hr, ho⟩ => ⟨r, hr, (), ho, rfl⟩

/-- R157 to R162: all that the carrying out of a request can come to. -/
theorem carryOut_cases (s : State) (c : ReqCode) (body : Agent → List Byte → State → Except Status Reply) :
    s.carryOut c body = s ∨
      ∃ a f, s.arbitrate.serving = some (a, f) ∧ f.code = c.byte ∧
        ((∃ st, s.carryOut c body = s.arbitrate.post a (f.refusal st)) ∨
          (∃ t d, body a f.params s.arbitrate = .ok (.answered t d) ∧ s.carryOut c body = t.post a (f.answer d)) ∨
          (body a f.params s.arbitrate = .ok (.begun (s.carryOut c body)))) := by
  rcases hs : s.arbitrate.serving with _ | ⟨a, f⟩
  · exact .inl (by simp only [State.carryOut, hs])
  by_cases hc : f.code = c.byte
  · refine .inr ⟨a, f, rfl, hc, ?_⟩
    obtain ⟨v, hv, he⟩ : ∃ v, ((∃ st, v = .error st) ∨ v = body a f.params s.arbitrate) ∧
        s.carryOut c body = s.arbitrate.conclude a f v := by
      refine ⟨_, ?_, by simp only [State.carryOut, hs, hc, if_true] <;> rfl⟩
      cases s.arbitrate.allow a c f.params with
      | error st => exact .inl ⟨st, rfl⟩
      | ok _ => exact .inr rfl
    rcases v with st | ⟨t, d⟩ | t
    · exact .inl ⟨st, he⟩
    · exact .inr (.inl ⟨t, d, (hv.resolve_left (by simp)).symm, he⟩)
    · have he : s.carryOut c body = t := he
      exact .inr (.inr (he ▸ (hv.resolve_left (by simp)).symm))
  · exact .inl (by simp only [State.carryOut, hs, hc] <;> rfl)

end Sys2Proof.Machine
end

section
/-! PROOFS. What a record's own operations keep: the nesting of its notice sets (R143), and its counter and staged copy
where R37 and R56 allow them. -/

namespace Sys2Proof.Machine

/-- A change of a record that keeps its pin, the nesting of its notice sets, and a sound timing. -/
structure Record.Keeps (r r' : Record) : Prop where
  pin : r'.pin = r.pin
  nested : r.noticesNested → r'.noticesNested
  timing : r.timingSound → r'.timingSound

variable {r r' r'' : Record}

theorem Record.Keeps.refl (r : Record) : r.Keeps r := ⟨rfl, id, id⟩

theorem Record.Keeps.trans (h : r.Keeps r') (h' : r'.Keeps r'') : r.Keeps r'' :=
  ⟨h'.pin.trans h.pin, h'.nested ∘ h.nested, h'.timing ∘ h.timing⟩

/-- A change after one that keeps a record's laws. -/
theorem Record.Keeps.after (h' : r'.Keeps r'') (h : r.Keeps r') : r.Keeps r'' :=
  h.trans h'

/-! ## The notice sets -/

/-- R143: a set is within another exactly when each of its notices is. -/
theorem and_eq_left_iff {x y : NoticeSet} : x &&& y = x ↔ ∀ i, x.getLsbD i = true → y.getLsbD i = true := by
  rw [BitVec.eq_of_getLsbD_eq_iff]
  constructor
  · intro h i hi
    have := h i (BitVec.lt_of_getLsbD hi)
    simp_all
  · intro h i _
    have := h i
    cases hx : x.getLsbD i <;> simp_all

/-- R143: the nesting, notice by notice. -/
theorem noticesNested_iff : r.noticesNested ↔
    (∀ i, r.againSet.getLsbD i = true → r.pendingSet.getLsbD i = true) ∧
      ∀ i, r.pendingSet.getLsbD i = true → r.enableSet.getLsbD i = true := by
  simp only [Record.noticesNested, and_eq_left_iff]

theorem Notice.index_lt (n : Notice) : n.index < 9 := by cases n <;> decide

/-- R178: the set of one notice holds its bit alone. -/
theorem Notice.getLsbD_bit (n : Notice) (i : Nat) : n.bit.getLsbD i = decide (i = n.index) := by
  have hn := n.index_lt
  simp only [Notice.bit, BitVec.getLsbD_shiftLeft, BitVec.getLsbD_one]
  by_cases hi : i = n.index
  · simp [hi, hn]
  · have : ¬ (n.index ≤ i ∧ i - n.index = 0) := by omega
    simp [hi]
    omega

/-- R144: a notice offered changes the pending and the again set alone. -/
theorem offer_frame (r : Record) (n : Notice) :
    r.offer n = { r with pendingSet := (r.offer n).pendingSet, againSet := (r.offer n).againSet } := by
  unfold Record.offer
  repeat' split
  all_goals rfl

/-- R143, R144: a notice offered keeps the sets nested. -/
theorem offer_nested (n : Notice) (h : r.noticesNested) : (r.offer n).noticesNested := by
  rw [noticesNested_iff] at h ⊢
  obtain ⟨hag, hpe⟩ := h
  unfold Record.offer
  split
  · rename_i hen
    split
    · rename_i hin
      refine ⟨fun i hi => ?_, hpe⟩
      rcases Bool.or_eq_true _ _ ▸ BitVec.getLsbD_or .. ▸ hi with hi | hi
      · exact hag i hi
      · rw [Notice.getLsbD_bit, decide_eq_true_eq] at hi
        exact hi ▸ hin
    · refine ⟨fun i hi => ?_, fun i hi => ?_⟩
      · simp [hag i hi]
      · rcases Bool.or_eq_true _ _ ▸ BitVec.getLsbD_or .. ▸ hi with hi | hi
        · exact hpe i hi
        · rw [Notice.getLsbD_bit, decide_eq_true_eq] at hi
          exact hi ▸ hen
  · exact ⟨hag, hpe⟩

/-- A change that leaves the pin, the notice sets and the timing alone. -/
theorem Record.Keeps.of_same (hp : r'.pin = r.pin) (he : r'.enableSet = r.enableSet)
    (hn : r'.pendingSet = r.pendingSet) (ha : r'.againSet = r.againSet) (ht : r.timingSound → r'.timingSound) :
    r.Keeps r' :=
  ⟨hp, by simp only [Record.noticesNested, he, hn, ha, imp_self], ht⟩

/-- R144: a notice offered. -/
theorem offer_keeps (r : Record) (n : Notice) : r.Keeps (r.offer n) := by
  refine ⟨?_, offer_nested n, fun h => ?_⟩ <;> rw [offer_frame]
  exact h

/-- R144: what occurred, offered. -/
theorem offerAll_keeps (r : Record) (occ : List Occurrence) : r.Keeps (r.offerAll occ) := by
  induction occ generalizing r with
  | nil => exact .refl r
  | cons o occ ih =>
    refine .trans ?_ (ih _)
    dsimp only
    split
    · exact offer_keeps r _
    · exact .refl r

theorem settled_keeps {x : Record × List Occurrence} (h : r.Keeps x.1) : r.Keeps (settled x) :=
  h.trans (offerAll_keeps x.1 x.2)

/-! ## The timing -/

/-- R43 to R49: a compare leaves the counter where it is or at 0. -/
theorem compare_counter (r : Record) : r.compare.1.counter = r.counter ∨ r.compare.1.counter = 0 := by
  unfold Record.compare
  repeat' split
  all_goals simp

/-- R45, R48, R49: the compare of a record of a periodic kind keeps its state. -/
theorem compare_state_of_periodic (h : r.kind.periodic = true) : r.compare.1.state = r.state := by
  unfold Record.compare
  cases hk : r.kind <;> simp [hk, Kind.periodic] at h <;> dsimp only <;> repeat' split
  all_goals rfl

/-- R37, R56: a compare keeps a sound timing. -/
theorem compare_timingSound (h : r.timingSound) : r.compare.1.timingSound := by
  obtain ⟨hc, hs⟩ := h
  have hf := compare_frame r
  have hk : r.compare.1.kind = r.kind := by rw [hf]
  have ht : r.compare.1.timing = r.timing := by rw [hf]
  have hst : r.compare.1.staged = r.staged := by rw [hf]
  refine ⟨fun hkt => ?_, fun t h => ?_⟩
  · have := hc (hk ▸ hkt)
    rw [ht]
    rcases compare_counter r with e | e <;> rw [e]
    · exact this
    · exact Nat.lt_of_le_of_lt (Nat.zero_le _) this
  · obtain ⟨hp, hrun, hper⟩ := hs t (hst ▸ h)
    exact ⟨hp, (compare_state_of_periodic hper).trans hrun, hk ▸ hper⟩

theorem compare_keeps (r : Record) : r.Keeps r.compare.1 := by
  refine .of_same ?_ ?_ ?_ ?_ compare_timingSound <;> rw [compare_frame]

/-- R37: a record of a timed kind with a sound timing has a period that is not 0. -/
theorem Record.timingSound.period_pos (h : r.timingSound) (hk : r.kind.timed = true) : 0 < r.timing.period.toNat :=
  Nat.lt_of_le_of_lt (Nat.zero_le _) (h.1 hk)

/-- R56: a record that is not RUNNING has no staged copy. -/
theorem Record.timingSound.staged_none (h : r.timingSound) (hn : r.state ≠ .running) : r.staged = none :=
  Option.eq_none_iff_forall_ne_some.2 fun t ht => hn (h.2 t ht).2.1

/-- R37, R56: the counter at 0 and the record RUNNING, with the other fields of the timing as they were. -/
theorem timingSound_at_zero (h : r.timingSound) (hk : r'.kind = r.kind) (ht : r'.timing = r.timing)
    (hst : r'.staged = r.staged) (hc : r'.counter = 0) (hs : r'.state = .running ∨ r.staged = none) :
    r'.timingSound := by
  refine ⟨fun hkt => ?_, fun t h' => ?_⟩
  · rw [hc, ht]
    exact h.period_pos (hk ▸ hkt)
  · rw [hst] at h'
    obtain ⟨hp, _, hper⟩ := h.2 t h'
    exact ⟨hp, hs.resolve_right (by simp [h']), hk ▸ hper⟩

/-- R41: a start. -/
theorem begin_keeps (r : Record) : r.Keeps r.begin.1 :=
  (compare_keeps { r with
    state := .running, counter := 0, phase := .waitA, output := r.startLevel, groupWait := none }).after
    (.of_same rfl rfl rfl rfl fun h => timingSound_at_zero h rfl rfl rfl rfl (.inl rfl))

/-- R61: the counter at 0 with a staged copy, if present, made the live timing. -/
theorem timingSound_committed (h : r.timingSound) (hk : r'.kind = r.kind)
    (ht : r'.timing = r.staged.getD r.timing) (hst : r'.staged = none) (hc : r'.counter = 0) : r'.timingSound := by
  refine ⟨fun hkt => ?_, by simp [hst]⟩
  rw [hc, ht]
  cases hs : r.staged with
  | none => exact h.period_pos (hk ▸ hkt)
  | some t => exact Nat.pos_of_ne_zero fun e => (h.2 t hs).1 (BitVec.eq_of_toNat_eq e)

/-- R38, R39: a crossing of the boundary. -/
theorem cross_keeps (r : Record) : r.Keeps r.cross.1 := by
  rw [cross_eq]
  exact (compare_keeps _).after (.of_same rfl rfl rfl rfl fun h => timingSound_committed h rfl rfl rfl rfl)

/-- R54: a stop of a record that is not IDLE. -/
theorem toIdle_keeps (r : Record) : r.Keeps r.toIdle.1 := by
  rw [toIdle_eq]
  exact .of_same rfl rfl rfl rfl fun h => timingSound_committed h rfl rfl rfl rfl

/-- R54: a stop, in any state. -/
theorem halt_keeps (r : Record) : r.Keeps r.halt.1 := by
  unfold Record.halt
  split
  · exact .of_same rfl rfl rfl rfl id
  · exact (toIdle_keeps r).trans (.of_same rfl rfl rfl rfl id)

/-- R37: an advance. -/
theorem advance_keeps (r : Record) : r.Keeps r.advance.1 := by
  unfold Record.advance
  split
  · split
    · rename_i hlt
      refine (compare_keeps _).after (.of_same rfl rfl rfl rfl fun h => ⟨fun _ => ?_, h.2⟩)
      have hp := r.timing.period.isLt
      have : (r.counter + 1).toNat = r.counter.toNat + 1 := by
        rw [BitVec.toNat_add]
        exact Nat.mod_eq_of_lt (Nat.lt_trans hlt hp)
      exact this ▸ hlt
    · exact cross_keeps r
  · exact .refl r

/-- R84: the taking of a cue. -/
theorem takeCue_keeps (r : Record) (a : CueAction) : r.Keeps (r.takeCue a).1 := by
  unfold Record.takeCue
  split
  · exact begin_keeps r
  · exact begin_keeps r
  · exact toIdle_keeps r
  · exact toIdle_keeps r
  · split
    · exact cross_keeps r
    · exact advance_keeps r
  · exact advance_keeps r

/-- R36: the taking of a tick. -/
theorem takeTick_keeps (r : Record) (latch : Bool) : r.Keeps (r.takeTick latch).1 := by
  unfold Record.takeTick
  split
  · exact begin_keeps r
  · split
    · rename_i c _
      exact (takeCue_keeps { r with cue := none } c.action).after (.of_same rfl rfl rfl rfl id)
    · exact advance_keeps r

/-- R120: a hold. -/
theorem takeHold_keeps (r : Record) : r.Keeps r.takeHold.1 := by
  unfold Record.takeHold
  cases r.held <;> exact .of_same rfl rfl rfl rfl id

/-- R123: a release that becomes owed. -/
theorem oweRelease_keeps (r : Record) : r.Keeps r.oweRelease.1 := by
  unfold Record.oweRelease
  repeat' split
  all_goals exact .of_same rfl rfl rfl rfl id

/-- R99: the held re-evaluation. -/
theorem reevaluate_keeps (r : Record) (before after : Bool) : r.Keeps (r.reevaluate before after).1 := by
  cases before <;> cases after
  · exact .refl r
  · exact takeHold_keeps r
  · exact oweRelease_keeps r
  · exact .refl r

/-- R53: an arming of a record that is not RUNNING. -/
theorem armed_keeps (hn : r.state ≠ .running) : r.Keeps r.armed := by
  unfold Record.armed
  split
  · exact .refl r
  · exact .of_same rfl rfl rfl rfl fun h => timingSound_at_zero h rfl rfl rfl rfl (.inr (h.staged_none hn))

/-- R146: the enable set replaced, and the others cut to it. -/
theorem setNotices_keeps (r : Record) (n : NoticeSet) : r.Keeps
    { r with enableSet := n, pendingSet := r.pendingSet &&& n, againSet := r.againSet &&& n } := by
  refine ⟨rfl, fun h => ?_, id⟩
  rw [noticesNested_iff] at h ⊢
  simp only [BitVec.getLsbD_and, Bool.and_eq_true]
  exact ⟨fun i hi => ⟨h.1 i hi.1, hi.2⟩, fun i hi => hi.2⟩

/-- R148: the sets taken and emptied. -/
theorem collected_keeps (r : Record) : r.Keeps { r with pendingSet := 0, againSet := 0 } :=
  ⟨rfl, fun _ => by simp [Record.noticesNested], id⟩

/-- R58: a staged copy on a RUNNING record of a periodic kind. -/
theorem stage_keeps {t : Timing} (ht : t.period ≠ 0) (hrun : r.state = .running) (hk : r.kind.periodic = true) :
    r.Keeps { r with staged := some t } :=
  .of_same rfl rfl rfl rfl fun h => ⟨h.1, fun _ e => Option.some.inj e ▸ ⟨ht, hrun, hk⟩⟩

/-- R57: the timing of a record that is not RUNNING replaced. -/
theorem retime_keeps {t : Timing} (ht : t.period ≠ 0) (hn : r.state ≠ .running) :
    r.Keeps { r with timing := t, counter := 0 } :=
  .of_same rfl rfl rfl rfl fun h => ⟨fun _ => Nat.pos_of_ne_zero fun e => ht (BitVec.eq_of_toNat_eq e), fun t' ht' =>
    absurd ht' (by simp [h.staged_none hn])⟩

/-- R65: a staged copy removed. -/
theorem unstage_keeps (r : Record) : r.Keeps { r with staged := none } :=
  .of_same rfl rfl rfl rfl fun h => ⟨h.1, fun _ e => by cases e⟩

end Sys2Proof.Machine
end

section
/-! PROOFS. What the shared operations keep of the three laws of the record and pin tables: nested notice sets (R143),
sound timing (R37, R56) and agreed claims (R102). -/

namespace Sys2Proof.Machine

/-! ## Claims, by the pin of each slot -/

/-- The pin of the record that a slot holds, if any. -/
def State.pinAt (s : State) (i : SlotIx) : Option Pin :=
  s.slots[i].record.bind (·.pin)

theorem pinAt_eq_some {s : State} {i : SlotIx} {p : Pin} :
    s.pinAt i = some p ↔ ∃ r, s.slots[i].record = some r ∧ r.pin = some p :=
  Option.bind_eq_some_iff

/-- R102: the claims agree exactly when each claim names the slot whose record has the pin, on an OUTPUT pin, and each
record with a pin is named by the pin's claim. -/
theorem claimsAgree_iff {s : State} : s.claimsAgree ↔
    (∀ (p : Pin) (h : Handle), s.pins[p].claim = some h →
      s.pins[p].config.role = .output ∧ s.slots[h.slot].gen = h.gen ∧ s.pinAt h.slot = some p) ∧
    ∀ (i : SlotIx) (p : Pin), s.pinAt i = some p → s.pins[p].claim = some (s.handleAt i) := by
  simp only [State.claimsAgree, record?_eq_some, pinAt_eq_some]
  constructor
  · rintro ⟨hp, hr⟩
    refine ⟨fun p h hc => ?_, fun i p ⟨r, hi, hrp⟩ => hr i r p hi hrp⟩
    obtain ⟨ho, r, ⟨hg, hs⟩, hrp⟩ := hp p h hc
    exact ⟨ho, hg, r, hs, hrp⟩
  · rintro ⟨hp, hr⟩
    refine ⟨fun p h hc => ?_, fun i r p hi hrp => hr i p ⟨r, hi, hrp⟩⟩
    obtain ⟨ho, hg, r, hs, hrp⟩ := hp p h hc
    exact ⟨ho, r, ⟨hg, hs⟩, hrp⟩

/-! ## Changes that keep the laws -/

/-- A change that keeps each of the three laws. -/
structure State.KeepsLaws (s t : State) : Prop where
  nested : s.noticesNested → t.noticesNested
  timing : s.timingSound → t.timingSound
  claims : s.claimsAgree → t.claimsAgree

/-- A change that keeps every generation, EMPTY slot, claim and role, the ports and the engine, and changes records in
ways that keep their laws. -/
structure State.Follows (s t : State) : Prop where
  gen : ∀ i : SlotIx, t.slots[i].gen = s.slots[i].gen
  record : ∀ i : SlotIx, Option.Rel Record.Keeps s.slots[i].record t.slots[i].record
  claim : ∀ p : Pin, t.pins[p].claim = s.pins[p].claim
  role : ∀ p : Pin, t.pins[p].config.role = s.pins[p].config.role
  ports : t.ports = s.ports
  engine : t.engine = s.engine

variable {s t u : State}

theorem State.KeepsLaws.trans (h : s.KeepsLaws t) (h' : t.KeepsLaws u) : s.KeepsLaws u :=
  ⟨h'.nested ∘ h.nested, h'.timing ∘ h.timing, h'.claims ∘ h.claims⟩

theorem keeps_rel_refl (o : Option Record) : Option.Rel Record.Keeps o o := by
  cases o with
  | none => exact .none
  | some r => exact .some (.refl r)

/-- A change that leaves the record table and the pin table alone. -/
theorem State.KeepsLaws.of_tables (hs : t.slots = s.slots) (hp : t.pins = s.pins) : s.KeepsLaws t :=
  ⟨fun h i => hs ▸ h i, fun h i => hs ▸ h i, by
    simp only [State.claimsAgree, State.record?, State.handleAt, hs, hp, imp_self]⟩

/-- A change that leaves the record table, the pin table, the ports and the engine alone. -/
theorem State.Follows.of_frame (hs : t.slots = s.slots) (hp : t.pins = s.pins) (hq : t.ports = s.ports)
    (he : t.engine = s.engine) : s.Follows t :=
  ⟨fun i => by rw [hs], fun i => hs ▸ keeps_rel_refl _, fun p => by rw [hp], fun p => by rw [hp], hq, he⟩

theorem State.Follows.refl (s : State) : s.Follows s := .of_frame rfl rfl rfl rfl

theorem State.Follows.trans (h : s.Follows t) (h' : t.Follows u) : s.Follows u where
  gen i := (h'.gen i).trans (h.gen i)
  record i := by
    have h1 := h.record i
    have h2 := h'.record i
    revert h1 h2
    generalize s.slots[i].record = x
    generalize t.slots[i].record = y
    generalize u.slots[i].record = z
    rintro (h1 | _) (h2 | _)
    · rename_i h2
      exact .some (h1.trans h2)
    · exact .none
  claim p := (h'.claim p).trans (h.claim p)
  role p := (h'.role p).trans (h.role p)
  ports := h'.ports.trans h.ports
  engine := h'.engine.trans h.engine

/-- A record after the change has one before it, which it follows. -/
theorem State.Follows.before (h : s.Follows t) {i : SlotIx} {r : Record} (hr : t.slots[i].record = some r) :
    ∃ r₀, s.slots[i].record = some r₀ ∧ r₀.Keeps r := by
  have hi := h.record i
  rw [hr] at hi
  revert hi
  generalize s.slots[i].record = x
  rintro (hk | _)
  exact ⟨_, rfl, hk⟩

theorem State.Follows.pinAt (h : s.Follows t) (i : SlotIx) : t.pinAt i = s.pinAt i := by
  have hi := h.record i
  unfold State.pinAt
  revert hi
  generalize s.slots[i].record = x
  generalize t.slots[i].record = y
  rintro (hk | _)
  · exact hk.pin
  · rfl

/-- Such a change keeps the laws. -/
theorem State.Follows.keepsLaws (h : s.Follows t) : s.KeepsLaws t where
  nested hs i r hr := by
    obtain ⟨r₀, hr₀, hk⟩ := h.before hr
    exact hk.nested (hs i r₀ hr₀)
  timing hs i r hr := by
    obtain ⟨r₀, hr₀, hk⟩ := h.before hr
    exact hk.timing (hs i r₀ hr₀)
  claims hs := by
    simpa only [claimsAgree_iff, h.claim, h.role, h.gen, h.pinAt, State.handleAt] using hs

/-- A sequence of such changes is one. -/
theorem State.Follows.foldl {α : Type} {f : State → α → State} (h : ∀ (t : State) (x : α), t.Follows (f t x))
    (l : List α) (s : State) :
    s.Follows (l.foldl f s) := by
  induction l generalizing s with
  | nil => exact .refl s
  | cons x l ih => exact (h s x).trans (ih _)

/-! ## Records changed -/

/-- One record changed. -/
theorem setRecord_follows {i : SlotIx} {r r' : Record} (hr : s.slots[i].record = some r) (hk : r.Keeps r') :
    s.Follows (s.setRecord i r') where
  gen j := setRecord_gen s i j r'
  record j := by
    rw [setRecord_slots, put_get_fin]
    split
    · rename_i hj
      rw [hj, hr]
      exact .some hk
    · exact keeps_rel_refl _
  claim _ := rfl
  role _ := rfl
  ports := rfl
  engine := rfl

/-- The record of a current handle changed. -/
theorem setRecord_follows_of_record? {h : Handle} {r r' : Record} (hr : s.record? h = some r) (hk : r.Keeps r') :
    s.Follows (s.setRecord h.slot r') :=
  setRecord_follows (record?_eq_some.1 hr).2 hk

/-- Every record changed at once. -/
theorem mapRecords_follows {f : Record → Record} (hk : ∀ r : Record, r.Keeps (f r)) : s.Follows (s.mapRecords f) where
  gen i := by rw [mapRecords_slot]
  record i := by
    rw [mapRecords_slot]
    cases s.slots[i].record with
    | none => exact .none
    | some r => exact .some (hk r)
  claim _ := by rw [mapRecords_pins]
  role _ := by rw [mapRecords_pins]
  ports := mapRecords_ports s f
  engine := mapRecords_engine s f

/-- A pin's entry changed in other fields than its claim and its role. -/
theorem setPin_follows {p : Pin} {x : PinEntry} (hc : x.claim = s.pins[p].claim)
    (hr : x.config.role = s.pins[p].config.role) : s.Follows (s.setPin p x) where
  gen _ := rfl
  record _ := keeps_rel_refl _
  claim k := by
    rw [setPin_pins, put_get_fin]
    split
    · rename_i hk
      rw [hk, hc]
    · rfl
  role k := by
    rw [setPin_pins, put_get_fin]
    split
    · rename_i hk
      rw [hk, hr]
    · rfl
  ports := rfl
  engine := rfl

/-! ## Links and cues -/

theorem setLinkList_follows (s : State) (src : LinkSource) (l : List LinkIx) : s.Follows (s.setLinkList src l) := by
  cases src with
  | record h =>
    unfold State.setLinkList
    dsimp only
    split
    · rename_i r hr
      exact setRecord_follows_of_record? hr (.of_same rfl rfl rfl rfl id)
    · exact .refl s
  | pin p => exact setPin_follows rfl rfl

theorem freeLink_follows (s : State) (i : LinkIx) : s.Follows (s.freeLink i) := by
  unfold State.freeLink
  split
  · exact (setLinkList_follows s _ _).trans (.of_frame rfl rfl rfl rfl)
  · exact .refl s

theorem freeIfNames_follows (s : State) (h : Handle) (i : LinkIx) : s.Follows (s.freeIfNames h i) := by
  unfold State.freeIfNames
  split
  · split
    · exact freeLink_follows s i
    · exact .refl s
  · exact .refl s

theorem freeNaming_follows (s : State) (h : Handle) : s.Follows (s.freeNaming h) :=
  .foldl (fun t i => freeIfNames_follows t h i) _ s

theorem deliver_follows (s : State) (h : Handle) (c : Cue) : s.Follows (s.deliver h c) := by
  rcases deliver_cases s h c with ⟨_, e⟩ | ⟨r, hr, e⟩
  · rw [e]
    exact .refl s
  · rw [e]
    refine setRecord_follows_of_record? hr ?_
    have hk : r.Keeps { r with cue := some c } := .of_same rfl rfl rfl rfl id
    split
    · exact hk.trans (offer_keeps _ _)
    · exact hk

theorem walkLink_follows (s : State) (ev : SourceEvent) (i : LinkIx) : s.Follows (s.walkLink ev i) := by
  rcases walkLink_cases s ev i with e | ⟨l, _, _, _, e⟩
  · rw [e]
    exact .refl s
  · rw [e]
    exact deliver_follows s _ _

theorem walk_follows (s : State) (src : LinkSource) (ev : SourceEvent) : s.Follows (s.walk src ev) :=
  .foldl (fun t i => walkLink_follows t ev i) _ s

theorem walkEvents_follows (s : State) (h : Handle) (evs : List SourceEvent) : s.Follows (s.walkEvents h evs) :=
  .foldl (fun t ev => walk_follows t _ ev) _ s

theorem occur_follows {h : Handle} {r : Record} {x : Record × List Occurrence} (hr : s.record? h = some r)
    (hk : r.Keeps x.1) : s.Follows (s.occur h x) :=
  (setRecord_follows_of_record? hr (settled_keeps hk)).trans (walkEvents_follows _ _ _)

/-! ## Ticks, holds and releases -/

theorem takeAll_follows (s : State) (b : Base) : s.Follows (s.takeAll b) :=
  mapRecords_follows fun r => by
    split
    · exact settled_keeps (takeTick_keeps r _)
    · exact .refl r

theorem tickBase_follows (s : State) (b : Base) : s.Follows (s.tickBase b) := by
  have h : (s.takeAll b).Follows (((s.takeAll b).setBase b s.bases[b].ticked).draw) :=
    .of_frame (by rw [draw_slots, setBase_slots]) (by rw [draw_pins, setBase_pins]) (by rw [draw_ports, setBase_ports])
      (by rw [draw_engine, setBase_engine])
  unfold State.tickBase
  exact ((takeAll_follows s b).trans h).trans (.foldl (fun t x => walk_follows t _ _) _ _)

theorem setGroup_follows (s : State) (g : Group) (x : InhibitGroup) : s.Follows (s.setGroup g x) :=
  .of_frame (setGroup_slots s g x) (setGroup_pins s g x) (setGroup_ports s g x) (setGroup_engine s g x)

theorem holdAll_follows (s : State) (g : Group) : s.Follows (s.holdAll g) :=
  mapRecords_follows fun r => by
    split
    · exact settled_keeps (takeHold_keeps r)
    · exact .refl r

theorem releaseAll_follows (s : State) (g : Group) : s.Follows (s.releaseAll g) :=
  mapRecords_follows fun r => by
    split
    · exact settled_keeps (oweRelease_keeps r)
    · exact .refl r

theorem setGroupState_follows (s : State) (g : Group) (x : GroupState) : s.Follows (s.setGroupState g x) := by
  have h := setGroup_follows s g { s.group g with state := x }
  unfold State.setGroupState
  dsimp only
  split
  · exact h.trans (holdAll_follows _ g)
  · exact h.trans (releaseAll_follows _ g)
  · exact h

/-! ## Slots filled and emptied, and pins claimed -/

/-- Records that are those of the state before, or meet their laws. -/
theorem State.KeepsLaws.of_records
    (hr : ∀ (i : SlotIx) r, t.slots[i].record = some r →
      (∃ r₀, s.slots[i].record = some r₀ ∧ (r₀.noticesNested → r.noticesNested) ∧ (r₀.timingSound → r.timingSound)) ∨
        r.noticesNested ∧ r.timingSound)
    (hc : s.claimsAgree → t.claimsAgree) : s.KeepsLaws t where
  nested hs i r h := by
    rcases hr i r h with ⟨r₀, h₀, hn, _⟩ | ⟨hn, _⟩
    · exact hn (hs i r₀ h₀)
    · exact hn
  timing hs i r h := by
    rcases hr i r h with ⟨r₀, h₀, _, ht⟩ | ⟨_, ht⟩
    · exact ht (hs i r₀ h₀)
    · exact ht
  claims := hc

/-- R15: a slot emptied gives up its claim with its record. -/
theorem emptySlot_keepsLaws (s : State) (i : SlotIx) : s.KeepsLaws (s.emptySlot i) := by
  cases hi : s.slots[i].record with
  | none =>
    have : s.emptySlot i = s := by simp only [State.emptySlot, hi]
    rw [this]
    exact (State.Follows.refl s).keepsLaws
  | some r =>
    have hslot (j : SlotIx) (hj : j ≠ i) : (s.emptySlot i).slots[j] = s.slots[j] := by
      rw [emptySlot_eq s hi, put_get_fin, if_neg hj]
    have hnone : (s.emptySlot i).slots[i].record = none := by rw [emptySlot_eq s hi, put_get_fin, if_pos rfl]
    have hpin (p : Pin) : (s.emptySlot i).pins[p] =
        if r.pin = some p then { s.pins[p] with claim := none } else s.pins[p] := by
      rw [emptySlot_eq s hi]
      rcases r.pin with _ | q
      · simp
      · simp only [put_get_fin, Option.some.injEq]
        by_cases hq : p = q
        · subst hq
          simp
        · rw [if_neg hq, if_neg (Ne.symm hq)]
    refine .of_records (fun j r' hj => .inl ?_) fun hs => ?_
    · have hne : j ≠ i := fun e => by rw [e, hnone] at hj; cases hj
      exact ⟨r', hslot j hne ▸ hj, id, id⟩
    rw [claimsAgree_iff] at hs ⊢
    obtain ⟨hclaim, hrec⟩ := hs
    have hat : s.pinAt i = r.pin := by rw [State.pinAt, hi]; rfl
    have hat' (j : SlotIx) (hj : j ≠ i) : (s.emptySlot i).pinAt j = s.pinAt j := by
      rw [State.pinAt, hslot j hj]; rfl
    refine ⟨fun p h hc => ?_, fun j p hj => ?_⟩
    · rw [hpin p] at hc ⊢
      split at hc
      · cases hc
      · rename_i hp
        obtain ⟨ho, hg, hpa⟩ := hclaim p h hc
        have hne : h.slot ≠ i := fun e => hp (by rw [← hat, ← e, hpa])
        rw [hslot _ hne, hat' _ hne, if_neg hp]
        exact ⟨ho, hg, hpa⟩
    · have hne : j ≠ i := fun e => by
        rw [e, State.pinAt, hnone] at hj
        cases hj
      rw [hat' j hne] at hj
      have hcl := hrec j p hj
      have hp : r.pin ≠ some p := fun e => by
        have := hcl.symm.trans (hrec i p (hat.trans e))
        exact hne (congrArg Handle.slot (Option.some.inj this))
      rw [hpin p, if_neg hp, hcl, State.handleAt, State.handleAt, hslot j hne]

/-- R13, R106: a slot's record put on another pin, or on none, with the claims changed to match. -/
theorem claimed_keepsLaws {i : SlotIx} {r : Record} {q : Option Pin}
    (hg : ∀ j : SlotIx, t.slots[j].gen = s.slots[j].gen)
    (hne : ∀ j : SlotIx, j ≠ i → t.slots[j].record = s.slots[j].record)
    (hi : t.slots[i].record = some r) (hq : r.pin = q)
    (hr : r.noticesNested ∧ r.timingSound ∨ ∃ r₀, s.slots[i].record = some r₀ ∧
      (r₀.noticesNested → r.noticesNested) ∧ (r₀.timingSound → r.timingSound))
    (hrole : ∀ p : Pin, t.pins[p].config.role = s.pins[p].config.role)
    (hclaim : ∀ p : Pin, t.pins[p].claim =
      if q = some p then some (s.handleAt i) else if s.pinAt i = some p then none else s.pins[p].claim)
    (hok : ∀ p, q = some p → s.pins[p].config.role = .output ∧ (s.pins[p].claim = none ∨ s.pinAt i = some p)) :
    s.KeepsLaws t := by
  refine .of_records (fun j r' hj => ?_) fun hs => ?_
  · by_cases e : j = i
    · subst e
      obtain rfl : r = r' := Option.some.inj (hi.symm.trans hj)
      exact hr.symm
    · exact .inl ⟨r', hne j e ▸ hj, id, id⟩
  rw [claimsAgree_iff] at hs ⊢
  obtain ⟨hc, hrec⟩ := hs
  have hat : t.pinAt i = q := by rw [State.pinAt, hi]; exact hq
  have hat' (j : SlotIx) (hj : j ≠ i) : t.pinAt j = s.pinAt j := by rw [State.pinAt, hne j hj]; rfl
  have hh (j : SlotIx) : t.handleAt j = s.handleAt j := by rw [State.handleAt, hg]; rfl
  refine ⟨fun p h hp => ?_, fun j p hj => ?_⟩
  · rw [hclaim p] at hp
    rw [hrole p, hg]
    split at hp
    · rename_i e
      obtain rfl := Option.some.inj hp
      exact ⟨(hok p e).1, rfl, hat.trans e⟩
    · split at hp
      · cases hp
      · rename_i hpi
        obtain ⟨ho, hgen, hpa⟩ := hc p h hp
        have e : h.slot ≠ i := fun e => hpi (e ▸ hpa)
        exact ⟨ho, hgen, (hat' _ e).trans hpa⟩
  · rw [hclaim p, hh]
    by_cases e : j = i
    · subst e
      rw [if_pos (hat.symm.trans hj)]
    · rw [hat' j e] at hj
      have hcl := hrec j p hj
      have hpi : s.pinAt i ≠ some p := fun e' =>
        e (congrArg Handle.slot (Option.some.inj (hcl.symm.trans (hrec i p e'))))
      have hqp : q ≠ some p := fun e' => by
        rcases (hok p e').2 with hn | hp
        · rw [hn] at hcl
          cases hcl
        · exact hpi hp
      rw [if_neg hqp, if_neg hpi, hcl]

end Sys2Proof.Machine
end

section
/-! PROOFS. What the shared operations keep of the engine's agreement with the request slots (R153, R156). -/

namespace Sys2Proof.Machine

/-! ## What is being served -/

/-- R153: whether a request slot is being served, and by a sweep. -/
def RequestSlot.service : RequestSlot → Option Bool
  | .active _ => some false
  | .sweepActive => some true
  | _ => none

/-- R152: the agent of the operation in progress, and whether that is a sweep. -/
def State.service (s : State) : Option (Agent × Bool) :=
  s.engine.op.map fun o => (o.agent, o.sweep)

theorem slot_service_false {x : RequestSlot} : x.service = some false ↔ ∃ f, x = .active f := by
  cases x <;> simp [RequestSlot.service]

theorem slot_service_true {x : RequestSlot} : x.service = some true ↔ x = .sweepActive := by
  cases x <;> simp [RequestSlot.service]

theorem service_eq_some {s : State} {a : Agent} {b : Bool} :
    s.service = some (a, b) ↔ ∃ w, s.engine.op = some { agent := a, sweep := b, work := w } := by
  unfold State.service
  rcases s.engine.op with _ | ⟨a', b', w⟩
  · simp
  · simp

/-- R153, R156: the agreement, by what is being served. -/
theorem engineAgrees_iff {s : State} : s.engineAgrees ↔
    (s.engine.op = none → ∀ a : Agent, s.ports[a].request.chosen = none) ∧
      ∀ (a : Agent) (b : Bool), s.ports[a].request.service = some b ↔ s.service = some (a, b) := by
  simp only [State.engineAgrees, ← slot_service_false, ← slot_service_true, ← service_eq_some, Bool.forall_bool,
    Option.isNone_iff_eq_none, forall_and]
  exact and_congr_left fun _ => ⟨fun h ho a => h a ho, fun h a ho => h ho a⟩

/-- A change that keeps what is being served, and queues nothing. -/
structure State.KeepsServing (s t : State) : Prop where
  op : t.service = s.service
  slot : ∀ a : Agent, t.ports[a].request.service = s.ports[a].request.service
  queued : ∀ a : Agent, s.ports[a].request.chosen = none → t.ports[a].request.chosen = none

variable {s t u : State} {a : Agent}

theorem State.KeepsServing.trans (h : s.KeepsServing t) (h' : t.KeepsServing u) : s.KeepsServing u :=
  ⟨h'.op.trans h.op, fun a => (h'.slot a).trans (h.slot a), fun a => h'.queued a ∘ h.queued a⟩

/-- A change that leaves the request slots and the engine alone. -/
theorem State.KeepsServing.of_frame (hp : ∀ a : Agent, t.ports[a].request = s.ports[a].request)
    (he : t.engine.op = s.engine.op) : s.KeepsServing t :=
  ⟨by rw [State.service, he]; rfl, fun a => by rw [hp], fun a => by rw [hp]; exact id⟩

theorem State.KeepsServing.refl (s : State) : s.KeepsServing s := .of_frame (fun _ => rfl) rfl

/-- Such a change keeps the agreement. -/
theorem State.KeepsServing.agrees (h : s.KeepsServing t) (hs : s.engineAgrees) : t.engineAgrees := by
  rw [engineAgrees_iff] at hs ⊢
  obtain ⟨hidle, hserve⟩ := hs
  refine ⟨fun ho a => h.queued a (hidle ?_ a), fun a b => by rw [h.slot, h.op, hserve]⟩
  have := h.op
  rw [State.service, ho] at this
  exact Option.map_eq_none_iff.1 this.symm

/-- R162: the next visit of the operation in progress. -/
theorem setWork_keepsServing (s : State) (w : Work) : s.KeepsServing (s.setWork w) := by
  unfold State.setWork
  split
  · rename_i o ho
    exact ⟨by simp [State.service, ho], fun _ => rfl, fun _ => id⟩
  · exact .refl s

/-- A session changed. -/
theorem setSession_keepsServing (s : State) (a : Agent) (x : Session) : s.KeepsServing (s.setSession a x) :=
  .of_frame (fun _ => rfl) rfl

/-- A port changed, its slot put where it is not served and holds nothing, or left. -/
theorem setPort_keepsServing {x : Port} (hs : x.request.service = s.ports[a].request.service)
    (hc : s.ports[a].request.chosen = none → x.request.chosen = none) : s.KeepsServing (s.setPort a x) := by
  refine ⟨rfl, fun b => ?_, fun b => ?_⟩
  · rw [setPort_ports, put_get_fin]
    split
    · next hb => rw [hb, hs]
    · rfl
  · rw [setPort_ports, put_get_fin]
    split
    · next hb => rw [hb]; exact hc
    · exact id

/-- A port changed in other fields than its request slot. -/
theorem setPort_keepsServing_of_request {x : Port} (hx : x.request = s.ports[a].request) :
    s.KeepsServing (s.setPort a x) :=
  setPort_keepsServing (by rw [hx]) (by rw [hx]; exact id)

/-- R133, R164: a discard. -/
theorem discard_keepsServing (s : State) (a : Agent) (st : Status) : s.KeepsServing (s.discard a st) := by
  unfold State.discard
  dsimp only
  split
  · rename_i f hf
    exact setPort_keepsServing (by rw [hf]; rfl) fun _ => rfl
  · rename_i hf
    exact setPort_keepsServing (by rw [hf]; rfl) fun _ => rfl
  · exact .refl s

/-! ## The arbiter, the posting of a response and an arrival -/

/-- R156: a slot that can be chosen is not being served. -/
theorem chosen_service {x y : RequestSlot} {sweep : Bool} (h : x.chosen = some (y, sweep)) :
    y.service = some sweep := by
  cases x <;> simp [RequestSlot.chosen] at h <;> obtain ⟨rfl, rfl⟩ := h <;> rfl

/-- R156: the arbiter's choice makes the agreement, where an idle engine finds no slot in service. -/
theorem arbitrate_agrees (hidle : s.engine.op = none → ∀ a : Agent, s.ports[a].request.service = none)
    (hbusy : s.engine.op ≠ none → s.engineAgrees) : s.arbitrate.engineAgrees := by
  by_cases ho : s.engine.op = none
  · rw [engineAgrees_iff]
    refine ⟨fun h b => ?_, fun b sw => ?_⟩
    · have hq := arbitrate_idle h b
      rcases arbitrate_cases s with e | ⟨_, d, slot, sweep, _, e⟩
      · rw [e]
        exact hq
      · rw [e] at h
        cases h
    · rcases arbitrate_cases s with e | ⟨_, d, slot, sweep, hc, e⟩
      · rw [e, hidle ho b, State.service, ho]
        simp
      · rw [e]
        have hp : (s.choose d slot sweep).ports = put s.ports d { s.ports[d] with request := slot } := rfl
        have ht : (s.choose d slot sweep).service = some (d, sweep) := rfl
        rw [hp, ht, put_get_fin]
        split
        · rename_i hb
          simp [hb, chosen_service hc]
        · rename_i hb
          rw [hidle ho b]
          simp [Ne.symm hb]
  · obtain ⟨o, ho'⟩ := Option.ne_none_iff_exists'.1 ho
    rw [arbitrate_busy ho']
    exact hbusy ho

/-- R156: at an engine that agrees the arbiter has nothing to choose. -/
theorem arbitrate_of_agrees (h : s.engineAgrees) : s.arbitrate = s := by
  rw [engineAgrees_iff] at h
  by_cases ho : s.engine.op = none
  · exact arbitrate_nothing (h.1 ho)
  · obtain ⟨o, ho'⟩ := Option.ne_none_iff_exists'.1 ho
    exact arbitrate_busy ho'

/-- R153: the agreement lets only the agent of the operation in progress be in service. -/
theorem service_none_of_ne {b : Agent} {sweep : Bool} (h : s.engineAgrees) (ha : s.service = some (a, sweep))
    (hb : b ≠ a) : s.ports[b].request.service = none := by
  rw [Option.eq_none_iff_forall_ne_some]
  intro x hx
  rw [(engineAgrees_iff.1 h).2, ha] at hx
  exact hb (congrArg Prod.fst (Option.some.inj hx)).symm

/-- R161: the end of an operation: its slot is EMPTY and the engine idle, and the arbiter chooses. -/
theorem ended_agrees {sweep : Bool} (h : s.engineAgrees) (ha : s.service = some (a, sweep)) (hop : t.engine.op = none)
    (hslot : t.ports[a].request = .empty) (hne : ∀ b : Agent, b ≠ a → t.ports[b].request = s.ports[b].request) :
    t.arbitrate.engineAgrees := by
  refine arbitrate_agrees (fun _ b => ?_) fun h => absurd hop h
  by_cases hb : b = a
  · rw [hb, hslot]
    rfl
  · rw [hne b hb]
    exact service_none_of_ne h ha hb

/-- R161: the posting of a response by the agent in service. -/
theorem post_agrees {r : Response} (h : s.engineAgrees) (ha : s.service = some (a, false)) :
    (s.post a r).engineAgrees := by
  refine ended_agrees h ha rfl ?_ fun b hb => ?_
  · simp only [State.posted, setOp_ports, restartLease_ports, setPort_ports, put_get_fin, if_true]
  · simp only [State.posted, setOp_ports, restartLease_ports, setPort_ports, put_get_fin, if_neg hb]

/-- R155, R135: a slot that nothing serves takes a request or a sweep, and the arbiter chooses. -/
theorem queued_agrees {x : Port} (h : s.engineAgrees) (hs : s.ports[a].request.service = none)
    (hx : x.request.service = none) : (s.setPort a x).arbitrate.engineAgrees := by
  have hserve := (engineAgrees_iff.1 h).2
  have hslot (b : Agent) : ((s.setPort a x).ports[b]).request.service = s.ports[b].request.service := by
    rw [setPort_ports, put_get_fin]
    split
    · next hb => rw [hx, hb, hs]
    · rfl
  refine arbitrate_agrees (fun ho b => ?_) fun ho => ?_
  · have ho : s.engine.op = none := ho
    rw [hslot, Option.eq_none_iff_forall_ne_some]
    intro y hy
    rw [hserve, State.service, ho] at hy
    cases hy
  · rw [engineAgrees_iff]
    exact ⟨fun ho' => absurd ho' ho, fun b y => by rw [hslot, hserve]; rfl⟩

/-- R155: an arrival. -/
theorem arrive_agrees {f : Frame} (h : s.engineAgrees) : (s.arrive a f).engineAgrees := by
  unfold State.arrive
  dsimp only
  split
  · next he => exact queued_agrees h (by rw [he]; rfl) rfl
  · refine State.KeepsServing.agrees (setPort_keepsServing_of_request ?_) h
    rfl

/-! ## Both kinds of law -/

/-- A change that keeps the laws of the tables, and what is being served. -/
structure State.Keeps (s t : State) : Prop where
  laws : s.KeepsLaws t
  serving : s.KeepsServing t

theorem State.Keeps.trans (h : s.Keeps t) (h' : t.Keeps u) : s.Keeps u :=
  ⟨h.laws.trans h'.laws, h.serving.trans h'.serving⟩

theorem State.Follows.keeps (h : s.Follows t) : s.Keeps t :=
  ⟨h.keepsLaws, .of_frame (fun a => by rw [h.ports]) (by rw [h.engine])⟩

theorem State.Keeps.refl (s : State) : s.Keeps s := (State.Follows.refl s).keeps

theorem setWork_keeps (s : State) (w : Work) : s.Keeps (s.setWork w) := by
  refine ⟨.of_tables ?_ ?_, setWork_keepsServing s w⟩ <;> rw [setWork_frame]

theorem setSession_keeps (s : State) (a : Agent) (x : Session) : s.Keeps (s.setSession a x) :=
  ⟨.of_tables rfl rfl, setSession_keepsServing s a x⟩

theorem discard_keeps (s : State) (a : Agent) (st : Status) : s.Keeps (s.discard a st) := by
  refine ⟨.of_tables ?_ ?_, discard_keepsServing s a st⟩ <;> rw [discard_frame]

theorem setPort_keeps {x : Port} (hx : x.request = s.ports[a].request) : s.Keeps (s.setPort a x) :=
  ⟨.of_tables rfl rfl, setPort_keepsServing_of_request hx⟩

theorem State.Keeps.foldl {α : Type} {f : State → α → State} (h : ∀ (t : State) (x : α), t.Keeps (f t x)) (l : List α)
    (s : State) : s.Keeps (l.foldl f s) := by
  induction l generalizing s with
  | nil => exact .refl s
  | cons x l ih => exact (h s x).trans (ih _)

/-- R15: a slot emptied. -/
theorem emptySlot_keeps (s : State) (i : SlotIx) : s.Keeps (s.emptySlot i) := by
  refine ⟨emptySlot_keepsLaws s i, ?_⟩
  cases hi : s.slots[i].record with
  | none => simpa only [State.emptySlot, hi] using .refl s
  | some r => exact .of_frame (fun b => by rw [emptySlot_eq s hi]) (by rw [emptySlot_eq s hi])

/-- R17: a retirement made by one visit. -/
theorem retireSlot_keeps (s : State) (i : SlotIx) : s.Keeps (s.retireSlot i) := by
  unfold State.retireSlot
  split
  · exact (emptySlot_keeps s i).trans (freeNaming_follows _ _).keeps
  · exact .refl s

theorem arbitrate_keepsLaws (s : State) : s.KeepsLaws s.arbitrate :=
  .of_tables (arbitrate_slots s) (arbitrate_pins s)

theorem post_keepsLaws (s : State) (a : Agent) (r : Response) : s.KeepsLaws (s.post a r) :=
  .of_tables (post_slots s a r) (post_pins s a r)

end Sys2Proof.Machine
end

section
/-! PROOFS. What the body of each request keeps (chapters 1 to 9). -/

namespace Sys2Proof.Machine

/-- R157, R162: the state that a reply leaves. -/
def Reply.state : Reply → State
  | .answered t _ => t
  | .begun t => t

variable {s : State} {a : Agent} {p : List Byte} {x : Reply}

/-! ## Sessions, RESTART and the reads -/

theorem openBody_keeps (h : openBody a p s = .ok x) : s.Keeps x.state := by
  cases h
  refine State.Keeps.trans ?_ (setSession_keeps _ a _)
  split
  · refine (mapRecords_follows fun r => ?_).keeps
    split
    · exact .of_same rfl rfl rfl rfl id
    · exact .refl r
  · exact .refl s

theorem closeBody_keeps (h : closeBody a p s = .ok x) : s.Keeps x.state := by
  cases h
  exact setWork_keeps s _

theorem pingBody_keeps (h : pingBody a p s = .ok x) : s.Keeps x.state := by
  cases h
  exact .refl s

theorem setAttentionBody_keeps (h : setAttentionBody a p s = .ok x) : s.Keeps x.state := by
  simp only [setAttentionBody, bind_eq_ok, pure_ok, Except.ok.injEq] at h
  obtain ⟨v, _, rfl⟩ := h
  exact setSession_keeps s a _

theorem adoptBody_keeps (h : adoptBody a p s = .ok x) : s.Keeps x.state := by
  simp only [adoptBody, bind_eq_ok, current_eq_ok, pure_ok, Except.ok.injEq] at h
  obtain ⟨h, _, g, _, r, hr, _, _, _, _, rfl⟩ := h
  refine (setRecord_follows_of_record? hr ?_).keeps
  exact .of_same rfl rfl rfl rfl id

theorem forceCloseBody_keeps (h : forceCloseBody a p s = .ok x) : s.Keeps x.state := by
  simp only [forceCloseBody, bind_eq_ok, pure_ok, Except.ok.injEq] at h
  obtain ⟨g, _, _, _, rfl⟩ := h
  exact ((setSession_keeps s g _).trans (discard_keeps _ g .closed)).trans (setWork_keeps _ _)

theorem restartBody_keeps (h : restartBody a p s = .ok x) : s.Keeps x.state := by
  cases h
  exact .trans (.foldl (fun t g => (setSession_keeps t g _).trans (discard_keeps _ g .restarted)) _ s)
    (setWork_keeps _ _)

theorem readDeviceBody_keeps (h : readDeviceBody a p s = .ok x) : s.Keeps x.state := by
  cases h
  exact .refl s

theorem readInhibitBody_keeps (h : readInhibitBody a p s = .ok x) : s.Keeps x.state := by
  cases h
  exact .refl s

theorem readRecordBody_keeps (h : readRecordBody a p s = .ok x) : s.Keeps x.state := by
  simp only [readRecordBody, bind_eq_ok, pure_ok, Except.ok.injEq] at h
  obtain ⟨_, _, _, _, rfl⟩ := h
  exact .refl s

theorem findByPinBody_keeps (h : findByPinBody a p s = .ok x) : s.Keeps x.state := by
  simp only [findByPinBody, bind_eq_ok, pure_ok, Except.ok.injEq] at h
  obtain ⟨_, _, rfl⟩ := h
  exact .refl s

theorem readTimebaseBody_keeps (h : readTimebaseBody a p s = .ok x) : s.Keeps x.state := by
  simp only [readTimebaseBody, bind_eq_ok, pure_ok, Except.ok.injEq] at h
  obtain ⟨_, _, rfl⟩ := h
  exact .refl s

theorem listLinksBody_keeps (h : listLinksBody a p s = .ok x) : s.Keeps x.state := by
  simp only [listLinksBody, bind_eq_ok, pure_ok, Except.ok.injEq] at h
  obtain ⟨_, _, _, _, _, _, rfl⟩ := h
  exact .refl s

theorem readPinsBody_keeps (h : readPinsBody a p s = .ok x) : s.Keeps x.state := by
  simp only [readPinsBody, bind_eq_ok, pure_ok, Except.ok.injEq] at h
  obtain ⟨_, _, _, _, rfl⟩ := h
  exact .refl s

/-! ## Long operations begun -/

theorem collectBody_keeps (h : collectBody a p s = .ok x) : s.Keeps x.state := by
  simp only [collectBody, bind_eq_ok, pure_ok, Except.ok.injEq] at h
  obtain ⟨_, _, rfl⟩ := h
  exact setWork_keeps s _

theorem findByTagBody_keeps (h : findByTagBody a p s = .ok x) : s.Keeps x.state := by
  simp only [findByTagBody, bind_eq_ok, pure_ok, Except.ok.injEq] at h
  obtain ⟨_, _, rfl⟩ := h
  exact setWork_keeps s _

theorem startGroupBody_keeps (h : startGroupBody a p s = .ok x) : s.Keeps x.state := by
  simp only [startGroupBody, bind_eq_ok, pure_ok, Except.ok.injEq] at h
  obtain ⟨_, _, _, _, _, _, _, _, _, _, _, _, _, _, rfl⟩ := h
  exact setWork_keeps s _

theorem retireBody_keeps (h : retireBody a p s = .ok x) : s.Keeps x.state := by
  simp only [retireBody, bind_eq_ok, pure_ok, Except.ok.injEq] at h
  obtain ⟨h, _, _, _, rfl⟩ := h
  exact (emptySlot_keeps s h.slot).trans (setWork_keeps _ _)

/-! ## One record changed -/

theorem setTagBody_keeps (h : setTagBody a p s = .ok x) : s.Keeps x.state := by
  simp only [setTagBody, bind_eq_ok, ownRecord_eq_ok, pure_ok, Except.ok.injEq] at h
  obtain ⟨h, _, r, ⟨hr, _⟩, rfl⟩ := h
  refine (setRecord_follows_of_record? hr ?_).keeps
  exact .of_same rfl rfl rfl rfl id

theorem setLapseBody_keeps (h : setLapseBody a p s = .ok x) : s.Keeps x.state := by
  simp only [setLapseBody, bind_eq_ok, ownRecord_eq_ok, pure_ok, Except.ok.injEq] at h
  obtain ⟨h, _, l, _, r, ⟨hr, _⟩, rfl⟩ := h
  refine (setRecord_follows_of_record? hr ?_).keeps
  exact .of_same rfl rfl rfl rfl id

theorem setNoticesBody_keeps (h : setNoticesBody a p s = .ok x) : s.Keeps x.state := by
  simp only [setNoticesBody, bind_eq_ok, ownRecord_eq_ok, pure_ok, Except.ok.injEq] at h
  obtain ⟨h, _, n, _, r, ⟨hr, _⟩, rfl⟩ := h
  exact (setRecord_follows_of_record? hr (setNotices_keeps r n)).keeps

theorem startBody_keeps (h : startBody a p s = .ok x) : s.Keeps x.state := by
  simp only [startBody, bind_eq_ok, ownRecord_eq_ok, pure_ok, Except.ok.injEq] at h
  obtain ⟨h, _, r, ⟨hr, _⟩, _, _, rfl⟩ := h
  exact (occur_follows hr (begin_keeps r)).keeps

theorem armBody_keeps (h : armBody a p s = .ok x) : s.Keeps x.state := by
  simp only [armBody, bind_eq_ok, ownRecord_eq_ok, require_eq_ok, bne_iff_ne, pure_ok, Except.ok.injEq] at h
  obtain ⟨h, _, r, ⟨hr, _⟩, _, hn, rfl⟩ := h
  exact (setRecord_follows_of_record? hr (armed_keeps hn)).keeps

theorem stopBody_keeps (h : stopBody a p s = .ok x) : s.Keeps x.state := by
  simp only [stopBody, bind_eq_ok, ownRecord_eq_ok, pure_ok, Except.ok.injEq] at h
  obtain ⟨h, _, r, ⟨hr, _⟩, rfl⟩ := h
  exact (occur_follows hr (halt_keeps r)).keeps

theorem setLevelBody_keeps (h : setLevelBody a p s = .ok x) : s.Keeps x.state := by
  simp only [setLevelBody, bind_eq_ok, ownRecord_eq_ok, pure_ok, Except.ok.injEq] at h
  obtain ⟨h, _, v, _, r, ⟨hr, _⟩, _, _, rfl⟩ := h
  refine (setRecord_follows_of_record? hr ?_).keeps
  exact .of_same rfl rfl rfl rfl id

/-- R57 to R59: a timed kind that is RUNNING and not one-shot is periodic. -/
theorem periodic_of_timed {k : Kind} (ht : k.timed = true) (ho : k.oneShot = false) : k.periodic = true := by
  cases k <;> revert ht ho <;> decide

theorem setTimingBody_keeps (h : setTimingBody a p s = .ok x) : s.Keeps x.state := by
  simp only [setTimingBody, bind_eq_ok, ownRecord_eq_ok, require_eq_ok, bne_iff_ne] at h
  obtain ⟨h, _, _, hp, r, ⟨hr, _⟩, _, htimed, _, _, _, hbusy, h⟩ := h
  split at h
  · rename_i hrun
    cases h
    refine (setRecord_follows_of_record? hr (stage_keeps hp hrun (periodic_of_timed htimed ?_))).keeps
    simpa [hrun] using hbusy
  · rename_i hrun
    cases h
    exact (setRecord_follows_of_record? hr (retime_keeps hp hrun)).keeps

theorem cancelStagedBody_keeps (h : cancelStagedBody a p s = .ok x) : s.Keeps x.state := by
  simp only [cancelStagedBody, bind_eq_ok, ownRecord_eq_ok, pure_ok, Except.ok.injEq] at h
  obtain ⟨h, _, r, ⟨hr, _⟩, rfl⟩ := h
  exact (setRecord_follows_of_record? hr (unstage_keeps r)).keeps

/-! ## Links, bases and groups -/

/-- A link entry changed. -/
theorem setLink_follows (s : State) (i : LinkIx) (l : Option Link) : s.Follows (s.setLink i l) := by
  refine .of_frame ?_ ?_ ?_ ?_ <;> rfl

theorem linkBody_keeps (h : linkBody a p s = .ok x) : s.Keeps x.state := by
  cases hi : s.freeEntry? with
  | none =>
    simp only [linkBody, hi, bind_eq_ok, error_bind] at h
    obtain ⟨_, _, _, _, _, _, _, _, _, _, _, _, h⟩ := h
    cases h
  | some i =>
    simp only [linkBody, hi, bind_eq_ok, ok_bind, pure_ok, Except.ok.injEq] at h
    obtain ⟨l, _, _, _, _, _, _, _, _, _, _, _, _, _, rfl⟩ := h
    exact ((setLinkList_follows s l.source _).trans (setLink_follows _ _ _)).keeps

theorem unlinkBody_keeps (h : unlinkBody a p s = .ok x) : s.Keeps x.state := by
  simp only [unlinkBody, bind_eq_ok, pure_ok, Except.ok.injEq] at h
  obtain ⟨i, _, _, _, _, _, rfl⟩ := h
  exact (freeLink_follows s i).keeps

theorem setLinkBody_keeps (h : setLinkBody a p s = .ok x) : s.Keeps x.state := by
  simp only [setLinkBody, bind_eq_ok, pure_ok, Except.ok.injEq] at h
  obtain ⟨i, _, _, _, _, _, _, _, rfl⟩ := h
  exact (setLink_follows s i _).keeps

/-- A time base changed. -/
theorem setBase_follows (s : State) (b : Base) (y : TimeBase) : s.Follows (s.setBase b y) := by
  refine .of_frame ?_ ?_ ?_ ?_ <;> rfl

theorem setTimebaseBody_keeps (h : setTimebaseBody a p s = .ok x) : s.Keeps x.state := by
  simp only [setTimebaseBody, bind_eq_ok, pure_ok, Except.ok.injEq] at h
  obtain ⟨b, _, _, _, _, _, _, _, rfl⟩ := h
  exact (setBase_follows s b _).keeps

theorem runTimebaseBody_keeps (h : runTimebaseBody a p s = .ok x) : s.Keeps x.state := by
  simp only [runTimebaseBody, bind_eq_ok, pure_ok, Except.ok.injEq] at h
  obtain ⟨b, _, rfl⟩ := h
  exact (setBase_follows s b _).keeps

theorem haltTimebaseBody_keeps (h : haltTimebaseBody a p s = .ok x) : s.Keeps x.state := by
  simp only [haltTimebaseBody, bind_eq_ok, pure_ok, Except.ok.injEq] at h
  obtain ⟨b, _, rfl⟩ := h
  exact (setBase_follows s b _).keeps

theorem setDivisorBody_keeps (h : setDivisorBody a p s = .ok x) : s.Keeps x.state := by
  simp only [setDivisorBody, bind_eq_ok, pure_ok, Except.ok.injEq] at h
  obtain ⟨b, _, _, _, rfl⟩ := h
  exact (setBase_follows s b _).keeps

theorem configInhibitBody_keeps (h : configInhibitBody a p s = .ok x) : s.Keeps x.state := by
  simp only [configInhibitBody, bind_eq_ok, pure_ok, Except.ok.injEq] at h
  obtain ⟨g, _, _, _, _, _, rfl⟩ := h
  exact ((setGroup_follows s g _).trans (setGroupState_follows _ g _)).keeps

theorem clearInhibitBody_keeps (h : clearInhibitBody a p s = .ok x) : s.Keeps x.state := by
  simp only [clearInhibitBody, bind_eq_ok, pure_ok, Except.ok.injEq] at h
  obtain ⟨g, _, _, _, rfl⟩ := h
  exact (setGroupState_follows s g _).keeps

/-! ## CREATE, MOVE and the pins -/

/-- R103: a pin that meets the claim conditions. -/
theorem claimCheck_eq_ok {q : Pin} {u : Unit} : s.claimCheck a q = .ok u ↔
    s.pins[q].config.role = .output ∧ s.granted a q = true ∧ s.pins[q].claim = none := by
  unfold State.claimCheck
  split
  · next hr => exact ⟨fun h => (by cases h), fun ⟨ho, _⟩ => absurd ho hr⟩
  · next hr =>
    split
    · next hg => exact ⟨fun h => (by cases h), fun ⟨_, ht, _⟩ => absurd (hg.symm.trans ht) Bool.false_ne_true⟩
    · next hg =>
      split
      · next hc => exact ⟨fun h => (by cases h), fun ⟨_, _, hn⟩ => (by rw [hn] at hc; cases hc)⟩
      · next hc =>
        exact ⟨fun _ => ⟨not_not.1 hr, eq_true_of_ne_false hg, Option.not_isSome_iff_eq_none.1 hc⟩, fun _ => rfl⟩

/-- R6: a record as CREATE makes it has nested notice sets and, of a timed kind, a period that is not 0. -/
theorem newRecord_laws {y : NewRecord} {forced : Bool} (hp : y.kind.timed = true → y.timing.period ≠ 0) :
    (y.record a forced).noticesNested ∧ (y.record a forced).timingSound := by
  refine ⟨⟨by simp [NewRecord.record], by simp [NewRecord.record]⟩, fun hk => ?_, fun t ht => by cases ht⟩
  exact Nat.pos_of_ne_zero fun e => hp hk (BitVec.eq_of_toNat_eq e)

/-- R12: the period of parameters that are in range. -/
theorem createFields_period {y : NewRecord} (h : createFields p = .ok y) :
    y.kind.timed = true → y.timing.period ≠ 0 := by
  simp only [createFields, bind_eq_ok, require_eq_ok, pure_ok, Except.ok.injEq] at h
  obtain ⟨k, _, b, _, _, hp, _, _, l, _, _, _, i, _, ra, _, _, _, q, _, la, _, rfl⟩ := h
  intro hk
  have hk : k.timed = true := hk
  simpa [hk] using hp

/-- R3: the slot that a CREATE takes is EMPTY. -/
theorem emptySlot?_none {i : SlotIx} (h : s.emptySlot? = some i) : s.slots[i].record = none := by
  have := List.find?_some h
  simpa using this

/-- R13: the pins once the one that a CREATE names is claimed. -/
theorem claimFor_pins (s : State) (q : Option Pin) (h : Handle) (k : Pin) :
    (s.claimFor q h).pins[k] = if q = some k then { s.pins[k] with claim := some h } else s.pins[k] := by
  rcases q with _ | q
  · rfl
  · simp only [State.claimFor, setClaim_pins, put_get_fin, Option.some.injEq, eq_comm (a := q)]
    split
    · next e => rw [e]
    · rfl

/-- R13: the claim that a CREATE makes changes the pin table alone. -/
theorem claimFor_frame (s : State) (q : Option Pin) (h : Handle) :
    s.claimFor q h = { s with pins := (s.claimFor q h).pins } := by
  cases q <;> rfl

/-- R13: a record made in an EMPTY slot, with its pin claimed. -/
theorem created_keeps {i : SlotIx} {r : Record} (hi : s.slots[i].record = none)
    (hr : r.noticesNested ∧ r.timingSound)
    (hok : ∀ k, r.pin = some k → s.pins[k].config.role = .output ∧ s.pins[k].claim = none) :
    s.Keeps ((s.setRecord i r).claimFor r.pin (s.handleAt i)) := by
  have hslots : ((s.setRecord i r).claimFor r.pin (s.handleAt i)).slots = (s.setRecord i r).slots := by
    rw [claimFor_frame]
  have hat : s.pinAt i = none := by rw [State.pinAt, hi]; rfl
  refine ⟨claimed_keepsLaws (i := i) (fun j => ?gen) (fun j hj => ?record) ?new rfl (.inl hr) (fun k => ?role)
    (fun k => ?claim) (fun k hk => ⟨(hok k hk).1, .inl (hok k hk).2⟩), .of_frame (fun b => ?ports) ?engine⟩
  case gen => rw [hslots, setRecord_gen]
  case record => rw [hslots, setRecord_slots, put_get_fin, if_neg hj]
  case new => rw [hslots, setRecord_slots, put_get_fin, if_pos rfl]
  case role =>
    rw [claimFor_pins, setRecord_pins]
    split <;> rfl
  case claim =>
    rw [claimFor_pins, setRecord_pins, hat, if_neg (c := none = some k) (by simp)]
    split <;> rfl
  case ports => rw [claimFor_frame, setRecord_ports]
  case engine => rw [claimFor_frame, setRecord_engine]

theorem createBody_keeps (h : createBody a p s = .ok x) : s.Keeps x.state := by
  cases hi : s.emptySlot? with
  | none =>
    simp only [createBody, hi, bind_eq_ok, error_bind] at h
    obtain ⟨_, _, h⟩ := h
    cases h
  | some i =>
    simp only [createBody, hi, bind_eq_ok, ok_bind, pure_ok, Except.ok.injEq] at h
    obtain ⟨y, hy, _, hq, rfl⟩ := h
    refine created_keeps (r := y.record a (s.underForce y.pin)) (emptySlot?_none hi)
      (newRecord_laws (createFields_period hy)) fun k hk => ?_
    have hk : y.pin = some k := hk
    rw [hk] at hq
    obtain ⟨ho, _, hc⟩ := claimCheck_eq_ok.1 hq
    exact ⟨ho, hc⟩

/-- R106: the pins once the claims of a MOVE have changed. -/
theorem setClaim?_pins (s : State) (q : Option Pin) (c : Option Handle) (k : Pin) :
    (s.setClaim? q c).pins[k] = if q = some k then { s.pins[k] with claim := c } else s.pins[k] := by
  rcases q with _ | q
  · rfl
  · simp only [State.setClaim?, setClaim_pins, put_get_fin, Option.some.injEq, eq_comm (a := q)]
    split
    · next e => rw [e]
    · rfl

/-- R106: what a MOVE changes of the part: the record's slot and the two claims. -/
theorem moved_eq (s : State) (h : Handle) (r : Record) (q : Option Pin) :
    s.moved h r q = { s with
      slots := put s.slots h.slot
        { gen := s.slots[h.slot].gen
          record := some (settled ({ r with pin := q }.reevaluate (s.underForce r.pin) (s.underForce q))) }
      pins := ((s.setClaim? r.pin none).setClaim? q (some h)).pins } := by
  unfold State.moved
  cases r.pin <;> cases q <;> rfl

/-- R106: the pins after a MOVE. -/
theorem moved_pins (s : State) (h : Handle) (r : Record) (q : Option Pin) (k : Pin) :
    (s.moved h r q).pins[k] = { s.pins[k] with
      claim := if q = some k then some h else if r.pin = some k then none else s.pins[k].claim } := by
  rw [moved_eq]
  simp only [setClaim?_pins]
  split
  · split <;> rfl
  · split <;> rfl

/-- R105, R106: a MOVE whose conditions hold. -/
theorem moved_keeps {h : Handle} {r : Record} {q : Option Pin} (hr : s.record? h = some r)
    (hok : ∀ k, q = some k → s.pins[k].config.role = .output ∧ s.pins[k].claim = none) :
    s.Keeps (s.moved h r q) := by
  obtain ⟨hg, hi⟩ := record?_eq_some.1 hr
  have hh : s.handleAt h.slot = h := by rw [State.handleAt, hg]
  have hat : s.pinAt h.slot = r.pin := by rw [State.pinAt, hi]; rfl
  have hk := settled_keeps (reevaluate_keeps { r with pin := q } (s.underForce r.pin) (s.underForce q))
  refine ⟨claimed_keepsLaws (i := h.slot) (fun j => ?gen) (fun j hj => ?record) ?new hk.pin
    (.inr ⟨r, hi, hk.nested, hk.timing⟩) (fun k => ?role) (fun k => ?claim)
    (fun k hk => ⟨(hok k hk).1, .inl (hok k hk).2⟩), .of_frame (fun b => ?ports) ?engine⟩
  case gen =>
    rw [moved_eq, put_get_fin]
    split
    · next e => rw [e]
    · rfl
  case record => rw [moved_eq, put_get_fin, if_neg hj]
  case new => rw [moved_eq, put_get_fin, if_pos rfl]
  case role => rw [moved_pins]
  case claim => rw [moved_pins, hh, hat]
  case ports => rw [moved_eq]
  case engine => rw [moved_eq]

theorem moveBody_keeps (h : moveBody a p s = .ok x) : s.Keeps x.state := by
  simp only [moveBody, bind_eq_ok, ownRecord_eq_ok] at h
  obtain ⟨h, _, q, _, r, ⟨hr, _⟩, h⟩ := h
  split at h
  · cases h
    exact .refl s
  · simp only [bind_eq_ok, pure_ok, Except.ok.injEq] at h
    obtain ⟨_, hq, rfl⟩ := h
    refine moved_keeps hr fun k hk => ?_
    rw [hk] at hq
    obtain ⟨ho, _, hc⟩ := claimCheck_eq_ok.1 hq
    exact ⟨ho, hc⟩

/-- R96: a pin's configuration replaced, with its role kept where it is claimed. -/
theorem setConfig_keeps {k : Pin} {c : PinConfig}
    (hc : c.role = s.pins[k].config.role ∨ s.pins[k].config.role ≠ .output ∨ s.pins[k].claim = none) :
    s.Keeps (s.setPin k { s.pins[k] with config := c }) := by
  refine ⟨⟨id, id, fun hs => ?_⟩, .of_frame (fun _ => rfl) rfl⟩
  rw [claimsAgree_iff] at hs ⊢
  obtain ⟨hclaim, hrec⟩ := hs
  have hcl (j : Pin) : (s.setPin k { s.pins[k] with config := c }).pins[j].claim = s.pins[j].claim := by
    rw [setPin_pins, put_get_fin]
    split
    · next e => rw [e]
    · rfl
  refine ⟨fun j h hj => ?_, fun i j hj => (hcl j).trans (hrec i j hj)⟩
  obtain ⟨ho, hg, hp⟩ := hclaim j h ((hcl j).symm.trans hj)
  refine ⟨?_, hg, hp⟩
  rw [setPin_pins, put_get_fin]
  split
  · next e =>
    subst e
    rcases hc with e | hn | hn
    · exact e.trans ho
    · exact absurd ho hn
    · rw [hcl, hn] at hj
      cases hj
  · exact ho

/-- R97 to R99: a pin configured. -/
theorem configured_keeps {k : Pin} {c : PinConfig}
    (hc : c.role = s.pins[k].config.role ∨ s.pins[k].config.role ≠ .output ∨ s.pins[k].claim = none) :
    s.Keeps (s.configured k c) := by
  have hset := setConfig_keeps hc
  unfold State.configured
  dsimp only
  split
  · split
    · next h _ r hr =>
      exact hset.trans (setRecord_follows_of_record? (s := s.setPin k _) hr
        (settled_keeps (reevaluate_keeps r _ _))).keeps
    · exact hset
  · exact hset

theorem configPinBody_keeps (h : configPinBody a p s = .ok x) : s.Keeps x.state := by
  simp only [configPinBody, bind_eq_ok, require_eq_ok, pure_ok, Except.ok.injEq] at h
  obtain ⟨⟨k, c⟩, _, _, hok, rfl⟩ := h
  refine configured_keeps ?_
  rcases (Bool.or_eq_true _ _).mp hok with hr | hb
  · exact .inl (beq_iff_eq.1 hr)
  · refine .inr ?_
    by_cases ho : s.pins[k].config.role = .output
    · refine .inr (Option.not_isSome_iff_eq_none.1 fun hc => ?_)
      simp only [State.roleBusy, ho, hc] at hb
      cases hb
    · exact .inl ho

theorem grantPinsBody_keeps (h : grantPinsBody a p s = .ok x) : s.Keeps x.state := by
  simp only [grantPinsBody, bind_eq_ok, pure_ok, Except.ok.injEq] at h
  obtain ⟨g, _, _, _, es, _, _, _, _, _, rfl⟩ := h
  refine (State.Follows.foldl (fun t e => ?_) es s).keeps
  refine setPin_follows ?_ ?_ <;> rfl

/-! ## Every request -/

/-- R157: what the body of a request keeps, whatever the request. -/
theorem body_keeps : ∀ c : ReqCode, c.body a p s = .ok x → s.Keeps x.state
  | .openSession, h => openBody_keeps (a := a) (p := p) h
  | .closeSession, h => closeBody_keeps (a := a) (p := p) h
  | .ping, h => pingBody_keeps (a := a) (p := p) h
  | .setAttention, h => setAttentionBody_keeps (a := a) (p := p) h
  | .collect, h => collectBody_keeps (a := a) (p := p) h
  | .create, h => createBody_keeps (a := a) (p := p) h
  | .retire, h => retireBody_keeps (a := a) (p := p) h
  | .readRecord, h => readRecordBody_keeps (a := a) (p := p) h
  | .findByPin, h => findByPinBody_keeps (a := a) (p := p) h
  | .findByTag, h => findByTagBody_keeps (a := a) (p := p) h
  | .setTag, h => setTagBody_keeps (a := a) (p := p) h
  | .setLapse, h => setLapseBody_keeps (a := a) (p := p) h
  | .setNotices, h => setNoticesBody_keeps (a := a) (p := p) h
  | .start, h => startBody_keeps (a := a) (p := p) h
  | .arm, h => armBody_keeps (a := a) (p := p) h
  | .stop, h => stopBody_keeps (a := a) (p := p) h
  | .setLevel, h => setLevelBody_keeps (a := a) (p := p) h
  | .setTiming, h => setTimingBody_keeps (a := a) (p := p) h
  | .cancelStaged, h => cancelStagedBody_keeps (a := a) (p := p) h
  | .startGroup, h => startGroupBody_keeps (a := a) (p := p) h
  | .link, h => linkBody_keeps (a := a) (p := p) h
  | .unlink, h => unlinkBody_keeps (a := a) (p := p) h
  | .setLink, h => setLinkBody_keeps (a := a) (p := p) h
  | .listLinks, h => listLinksBody_keeps (a := a) (p := p) h
  | .move, h => moveBody_keeps (a := a) (p := p) h
  | .configPin, h => configPinBody_keeps (a := a) (p := p) h
  | .grantPins, h => grantPinsBody_keeps (a := a) (p := p) h
  | .readPins, h => readPinsBody_keeps (a := a) (p := p) h
  | .setTimebase, h => setTimebaseBody_keeps (a := a) (p := p) h
  | .runTimebase, h => runTimebaseBody_keeps (a := a) (p := p) h
  | .haltTimebase, h => haltTimebaseBody_keeps (a := a) (p := p) h
  | .setDivisor, h => setDivisorBody_keeps (a := a) (p := p) h
  | .readTimebase, h => readTimebaseBody_keeps (a := a) (p := p) h
  | .configInhibit, h => configInhibitBody_keeps (a := a) (p := p) h
  | .clearInhibit, h => clearInhibitBody_keeps (a := a) (p := p) h
  | .readInhibit, h => readInhibitBody_keeps (a := a) (p := p) h
  | .adopt, h => adoptBody_keeps (a := a) (p := p) h
  | .forceClose, h => forceCloseBody_keeps (a := a) (p := p) h
  | .restart, h => restartBody_keeps (a := a) (p := p) h
  | .readDevice, h => readDeviceBody_keeps (a := a) (p := p) h

end Sys2Proof.Machine
end

section
/-! PROOFS. What every command and every step keeps: the four laws of R143, R37 and R56, R153 and R156, and R102. -/

namespace Sys2Proof.Machine

/-- A change that keeps each of the four laws. -/
structure State.KeepsEvery (s t : State) : Prop where
  laws : s.KeepsLaws t
  agrees : s.engineAgrees → t.engineAgrees

variable {s t u : State} {a : Agent} {f : Frame}

theorem State.Keeps.every (h : s.Keeps t) : s.KeepsEvery t := ⟨h.laws, h.serving.agrees⟩

theorem State.Follows.every (h : s.Follows t) : s.KeepsEvery t := h.keeps.every

theorem State.KeepsEvery.refl (s : State) : s.KeepsEvery s := (State.Keeps.refl s).every

theorem State.KeepsEvery.trans (h : s.KeepsEvery t) (h' : t.KeepsEvery u) : s.KeepsEvery u :=
  ⟨h.laws.trans h'.laws, h'.agrees ∘ h.agrees⟩

/-- R156: the arbiter's choice. -/
theorem arbitrate_keepsEvery (s : State) : s.KeepsEvery s.arbitrate :=
  ⟨arbitrate_keepsLaws s, fun h => by rwa [arbitrate_of_agrees h]⟩

/-- R161: changes by the request in service, and then its response posted. -/
theorem post_keepsEvery {r : Response} (h : s.Keeps t) (hs : s.service = some (a, false)) :
    s.KeepsEvery (t.post a r) :=
  ⟨h.laws.trans (post_keepsLaws t a r), fun ha => post_agrees (h.serving.agrees ha) (h.serving.op.trans hs)⟩

theorem serving_service (h : s.serving = some (a, f)) : s.service = some (a, false) :=
  service_eq_some.2 ⟨_, (serving_iff.1 h).1⟩

theorem working_service {w : Work} (h : s.working = some (a, f, w)) : s.service = some (a, false) :=
  service_eq_some.2 ⟨w, (working_iff.1 h).1⟩

/-! ## Requests (R157 to R162) -/

/-- R157: the carrying out of any request. -/
theorem request_keepsEvery (s : State) (c : ReqCode) : s.KeepsEvery (s.carryOut c c.body) := by
  rcases carryOut_cases s c c.body with e | ⟨a, f, hs, _, ⟨st, e⟩ | ⟨t, d, hb, e⟩ | hb⟩
  · rw [e]
    exact .refl s
  · rw [e]
    exact (arbitrate_keepsEvery s).trans (post_keepsEvery (.refl _) (serving_service hs))
  · rw [e]
    exact (arbitrate_keepsEvery s).trans (post_keepsEvery (body_keeps c hb) (serving_service hs))
  · exact (arbitrate_keepsEvery s).trans (body_keeps c hb).every

/-- R158 check 2: a request whose code is in no table. -/
theorem unknownRequest_keepsEvery (h : exec .unknownRequest s = .next t) : s.KeepsEvery t := by
  cases h
  dsimp only
  split
  · next a f hs =>
    split
    · exact .refl s
    · exact (arbitrate_keepsEvery s).trans (post_keepsEvery (.refl _) (serving_service hs))
  · exact .refl s

/-! ## Visits (R162) -/

theorem retireOwned_keeps (s : State) (g : Agent) (i : SlotIx) : s.Keeps (s.retireOwned g i) := by
  unfold State.retireOwned
  split
  · exact retireSlot_keeps s i
  · exact .refl s

theorem closeVisit_keepsEvery (h : exec .closeVisit s = .next t) : s.KeepsEvery t := by
  cases h
  split
  · next a f i n hw =>
    have hr := retireOwned_keeps s a i
    dsimp only
    split
    · exact (hr.trans (setWork_keeps _ _)).every
    · exact post_keepsEvery (hr.trans (setSession_keeps _ a _)) (working_service hw)
  · exact .refl s

theorem forceCloseVisit_keepsEvery (h : exec .forceCloseVisit s = .next t) : s.KeepsEvery t := by
  cases h
  split
  · next a f g _ _ _ i _ hw =>
    have hr := retireOwned_keeps s g i
    dsimp only
    split
    · exact (hr.trans (setWork_keeps _ _)).every
    · exact post_keepsEvery (hr.trans (setSession_keeps _ g _)) (working_service hw)
  · exact .refl s

theorem closeSession_keeps (s : State) (g : Agent) : s.Keeps (s.closeSession g) :=
  setSession_keeps s g _

/-- R164 steps 3 to 5. -/
theorem restarted_keeps (s : State) : s.Keeps s.restarted := by
  have hb : s.Keeps { s with bases := tab fun b => s.bases[b].restarted } := by
    refine State.Follows.keeps (.of_frame ?_ ?_ ?_ ?_) <;> rfl
  have hc := hb.trans (.foldl (fun t g => closeSession_keeps t g) otherAgents _)
  refine hc.trans ⟨.of_tables ?_ ?_, .of_frame (fun _ => ?_) ?_⟩ <;> rfl

theorem restartVisit_keepsEvery (h : exec .restartVisit s = .next t) : s.KeepsEvery t := by
  cases h
  split
  · next a f _ i _ hw =>
    have hr := retireSlot_keeps s i
    dsimp only
    split
    · exact (hr.trans (setWork_keeps _ _)).every
    · exact post_keepsEvery (hr.trans (restarted_keeps _)) (working_service hw)
  · exact .refl s

theorem linkFreeVisit_keepsEvery (h : exec .linkFreeVisit s = .next t) : s.KeepsEvery t := by
  cases h
  split
  · next a f h i hw =>
    have hr := (freeIfNames_follows s h i).keeps
    dsimp only
    split
    · exact (hr.trans (setWork_keeps _ _)).every
    · exact post_keepsEvery hr (working_service hw)
  · exact .refl s

theorem findByTagVisit_keepsEvery (h : exec .findByTagVisit s = .next t) : s.KeepsEvery t := by
  cases h
  split
  · next a f tag i found hw =>
    split
    · exact post_keepsEvery (.refl s) (working_service hw)
    · dsimp only
      split
      · exact (setWork_keeps s _).every
      · exact post_keepsEvery (.refl s) (working_service hw)
  · exact .refl s

/-- R148: a slot that qualifies for a COLLECT holds the record. -/
theorem collectable_eq_some {i : SlotIx} {r : Record} : s.collectable a i = some r ↔
    s.slots[i].record = some r ∧ r.owner = a ∧ r.pendingSet ≠ 0 := by
  unfold State.collectable
  cases s.slots[i].record with
  | none => simp
  | some r' =>
    simp only [Option.ite_none_right_eq_some, Option.some.injEq]
    exact ⟨fun ⟨h, e⟩ => ⟨e, e ▸ h⟩, fun ⟨e, h⟩ => ⟨e ▸ h, e⟩⟩

theorem collectVisit_keepsEvery (h : exec .collectVisit s = .next t) : s.KeepsEvery t := by
  cases h
  split
  · next a f i es hw =>
    split
    · next r hr =>
      split
      · exact post_keepsEvery (.refl s) (working_service hw)
      · have hk := (setRecord_follows (collectable_eq_some.1 hr).1 (collected_keeps r)).keeps
        dsimp only
        split
        · exact (hk.trans (setWork_keeps _ _)).every
        · exact post_keepsEvery hk (working_service hw)
    · split
      · exact (setWork_keeps s _).every
      · exact post_keepsEvery (.refl s) (working_service hw)
  · exact .refl s

theorem markWaiting_keeps (s : State) (h : Handle) (b : Base) : s.Keeps (s.markWaiting h b) := by
  unfold State.markWaiting
  split
  · next r hr =>
    split
    · exact .refl s
    · refine (setRecord_follows_of_record? hr ?_).keeps
      exact .of_same rfl rfl rfl rfl id
  · exact .refl s

theorem startGroupVisit_keepsEvery (h : exec .startGroupVisit s = .next t) : s.KeepsEvery t := by
  cases h
  split
  · next a f b h hs n marked hw =>
    have hk := markWaiting_keeps s h b
    dsimp only
    split
    · exact post_keepsEvery (hk.trans (setBase_follows _ b _).keeps) (working_service hw)
    · exact (hk.trans (setWork_keeps _ _)).every
  · exact .refl s

/-! ## Leases and sweeps (R135 to R137) -/

theorem leaseExpiry_keepsEvery (h : exec (.leaseExpiry a) s = .next t) : s.KeepsEvery t := by
  cases h
  split
  · next hr =>
    have he : s.ports[a].request = .empty := by
      simp only [State.timerRuns, Bool.and_eq_true, beq_iff_eq] at hr
      exact hr.2
    have hk := setSession_keeps s a { s.sessions[a] with state := .lapsed, timer := 0 }
    refine hk.every.trans ⟨.of_tables (arbitrate_slots _) (arbitrate_pins _), fun ha => ?_⟩
    exact queued_agrees ha (by rw [setSession_ports, he]; rfl) rfl
  · exact .refl s

theorem lapseSweep_keepsEvery (h : exec .lapseSweep s = .next t) : s.KeepsEvery t := by
  cases h
  dsimp only
  split
  · split
    · exact (arbitrate_keepsEvery s).trans (setWork_keeps _ _).every
    · exact .refl s
  · exact .refl s

theorem sweepSlot_keeps (s : State) (g : Agent) (i : SlotIx) : s.Keeps (s.sweepSlot g i) := by
  unfold State.sweepSlot
  split
  · next r hr =>
    split
    · unfold State.applyLapse
      split
      · exact (setRecord_follows hr (settled_keeps (.of_same rfl rfl rfl rfl id))).keeps
      · have hpark : r.Keeps { r.halt.1 with orphan := true } := (halt_keeps r).trans (.of_same rfl rfl rfl rfl id)
        exact (setRecord_follows hr (settled_keeps (x := (_, _)) hpark)).keeps
      · exact retireSlot_keeps s i
    · exact .refl s
  · exact .refl s

theorem lapseSweepVisit_keepsEvery (h : exec .lapseSweepVisit s = .next t) : s.KeepsEvery t := by
  cases h
  split
  · next a i ho =>
    have hk := sweepSlot_keeps s a i
    have hs : s.service = some (a, true) := service_eq_some.2 ⟨_, ho⟩
    dsimp only
    split
    · exact (hk.trans (setWork_keeps _ _)).every
    · refine ⟨hk.laws.trans (.of_tables ?_ ?_), fun ha => ?_⟩
      · rw [arbitrate_slots, setOp_slots, setPort_slots]
      · rw [arbitrate_pins, setOp_pins, setPort_pins]
      · refine ended_agrees (hk.serving.agrees ha) (hk.serving.op.trans hs) rfl ?_ fun b hb => ?_
        · rw [setOp_ports, setPort_ports, put_get_fin, if_pos rfl]
        · rw [setOp_ports, setPort_ports, put_get_fin, if_neg hb]
  · exact .refl s

/-! ## Transactions (10.1 to 10.5) -/

/-- A change that leaves the tables, the ports and the engine alone. -/
theorem State.Keeps.of_frame (hs : t.slots = s.slots) (hp : t.pins = s.pins) (hq : t.ports = s.ports)
    (he : t.engine = s.engine) : s.Keeps t :=
  (State.Follows.of_frame hs hp hq he).keeps

theorem setReceiver_keeps (s : State) (x : Option Reception) : s.Keeps { s with receiver := x } := by
  refine .of_frame ?_ ?_ ?_ ?_ <;> rfl

theorem setSdo_keeps (s : State) (l : List Byte) : s.Keeps { s with sdo := l } := by
  refine .of_frame ?_ ?_ ?_ ?_ <;> rfl

theorem portByte_keeps (s : State) (b : Byte) : s.Keeps (s.portByte b) := by
  unfold State.portByte
  split
  · exact .refl s
  · next x _ =>
    have hsdo := setSdo_keeps s (s.sdo ++ [x.output x.bytes.length])
    dsimp only
    split
    · exact hsdo.trans (setReceiver_keeps _ _)
    · next h _ _ =>
      refine State.Keeps.trans (hsdo.trans ?_) (setReceiver_keeps _ _)
      generalize { s with sdo := s.sdo ++ [x.output x.bytes.length] } = u
      have hflags : u.Keeps (if x.bytes.length = 1 then u.clearFlags x (headerAgent h) else u) := by
        split
        · exact setPort_keeps rfl
        · exact .refl u
      refine hflags.trans ?_
      generalize (if x.bytes.length = 1 then u.clearFlags x (headerAgent h) else u) = v
      split
      · refine setPort_keeps ?_
        rfl
      · exact .refl v

theorem arrive_keepsEvery (s : State) (a : Agent) (f : Frame) : s.KeepsEvery (s.arrive a f) := by
  refine ⟨.of_tables ?_ ?_, arrive_agrees⟩ <;> rw [arrive_frame]

theorem frameFault_keepsEvery (s : State) (a : Agent) : s.KeepsEvery (s.frameFault a) := by
  refine (setPort_keeps ?_).every
  rfl

theorem crcFault_keepsEvery (s : State) (a : Agent) : s.KeepsEvery (s.crcFault a) := by
  refine (setPort_keeps ?_).every
  rfl

theorem endRequest_keepsEvery (s : State) (a : Agent) (bytes : List Byte) (bits : Nat) :
    s.KeepsEvery (s.endRequest a bytes bits) := by
  unfold State.endRequest
  dsimp only
  split
  · exact frameFault_keepsEvery s a
  split
  · exact frameFault_keepsEvery s a
  split
  · exact frameFault_keepsEvery s a
  split
  · exact crcFault_keepsEvery s a
  · exact arrive_keepsEvery s a _

theorem endTransaction_keepsEvery (s : State) (x : Reception) (bits : Nat) :
    s.KeepsEvery (s.endTransaction x bits) := by
  unfold State.endTransaction
  split
  · exact .refl s
  dsimp only
  split
  · exact frameFault_keepsEvery s _
  split
  · exact endRequest_keepsEvery s _ _ _
  · split
    · exact frameFault_keepsEvery s _
    · exact .refl s
  · split
    · exact frameFault_keepsEvery s _
    · exact .refl s
  · exact frameFault_keepsEvery s _

theorem csnRise_keepsEvery (s : State) (bits : Nat) : s.KeepsEvery (s.csnRise bits) := by
  have hrise (l : List Bool) : s.Keeps { s with csnLow := false, receiver := none, sdoBits := l } := by
    refine .of_frame ?_ ?_ ?_ ?_ <;> rfl
  unfold State.csnRise
  dsimp only
  split
  · exact (hrise _).every.trans (endTransaction_keepsEvery _ _ _)
  · exact (hrise _).every

/-- R168: any stretch of a transaction, of any type. -/
theorem transfer_keepsEvery (s : State) (type : Nat) (x : Transfer) : s.KeepsEvery (s.transfer type x) := by
  unfold State.transfer
  split
  · exact .refl s
  dsimp only
  have hopen : s.Keeps (if x.opens then s.csnFall else s) := by
    split
    · refine .of_frame ?_ ?_ ?_ ?_ <;> rfl
    · exact .refl s
  have hbytes := hopen.trans (.foldl portByte_keeps x.bytes _)
  split
  · exact hbytes.every.trans (csnRise_keepsEvery _ _)
  · exact hbytes.every

/-! ## Pins, lines and the resets -/

theorem countEdge_follows (s : State) (p : Pin) (d : EdgeDir) : s.Follows (s.countEdge p d) := by
  have hdraw : s.Follows s.draw := by refine .of_frame ?_ ?_ ?_ ?_ <;> rfl
  exact hdraw.trans (.foldl tickBase_follows _ _)

theorem edge_keepsEvery {p : Pin} {d : EdgeDir} (h : exec (.edge p d) s = .next t) : s.KeepsEvery t := by
  cases h
  split
  · exact .refl s
  have hset : s.Follows (s.setFiltered p (edgeLevel d)) := by
    refine setPin_follows ?_ ?_ <;> rfl
  dsimp only
  split
  · exact hset.every
  · exact hset.every
  · exact (hset.trans (walk_follows _ _ _)).every
  · exact (hset.trans (countEdge_follows _ _ _)).every

theorem lineEvent_follows (s : State) (g : Group) (v : Bool) : s.Follows (s.lineEvent g v) := by
  unfold State.lineEvent
  dsimp only
  split
  · exact setGroup_follows s g _
  split
  · exact .refl s
  split
  · exact (setGroup_follows s g _).trans (setGroupState_follows _ g _)
  · exact setGroup_follows s g _

theorem observedLevelChange_keepsEvery {p : Pin} {v : Option Bool}
    (h : exec (.observedLevelChange p v) s = .next t) : s.KeepsEvery t := by
  cases h
  have h1 : s.Follows (s.setPin p { s.pins[p] with board := v }) := by
    refine setPin_follows ?_ ?_ <;> rfl
  refine (h1.trans (u := State.draw _) ?_).every
  generalize s.setPin p { s.pins[p] with board := v } = u
  have h2 : u.Follows (u.setPin p { u.pins[p] with observed := u.levelAt p }) := by
    refine setPin_follows ?_ ?_ <;> rfl
  refine h2.trans (.of_frame ?_ ?_ ?_ ?_) <;> rfl

/-- A change that leaves the record table, the ports and the engine's operation alone, and of the pins the claims and
the roles. -/
theorem State.Keeps.of_pins (hs : t.slots = s.slots) (hc : ∀ p : Pin, t.pins[p].claim = s.pins[p].claim)
    (hr : ∀ p : Pin, t.pins[p].config.role = s.pins[p].config.role) (hq : t.ports = s.ports)
    (ho : t.engine.op = s.engine.op) : s.Keeps t :=
  ⟨⟨fun h i => hs ▸ h i, fun h i => hs ▸ h i, by
    simp only [State.claimsAgree, State.record?, State.handleAt, hs, hc, hr, imp_self]⟩,
    .of_frame (fun a => by rw [hq]) ho⟩

/-- R24, R152: a part with no record, no claim, an idle engine and EMPTY request slots meets every law. -/
theorem laws_of_empty (hslot : ∀ i : SlotIx, t.slots[i].record = none) (hclaim : ∀ p : Pin, t.pins[p].claim = none)
    (hop : t.engine.op = none) (hport : ∀ a : Agent, t.ports[a].request = .empty) :
    t.noticesNested ∧ t.timingSound ∧ t.engineAgrees ∧ t.claimsAgree := by
  have hnone {i : SlotIx} {r : Record} (h : t.slots[i].record = some r) : False := by
    rw [hslot i] at h
    cases h
  refine ⟨fun i r h => (hnone h).elim, fun i r h => (hnone h).elim, engineAgrees_iff.2 ⟨fun _ a => ?_, fun a b => ?_⟩,
    fun p h hp => ?_, fun i r _ h => (hnone h).elim⟩
  · rw [hport a]
    rfl
  · rw [hport a, State.service, hop]
    simp [RequestSlot.service]
  · rw [hclaim p] at hp
    cases hp

/-- R24, R152: a reset. -/
theorem cleared_laws (s : State) (line : ResetLine) (cause : ResetCause) :
    let t := (s.cleared line cause).takeLevels
    t.noticesNested ∧ t.timingSound ∧ t.engineAgrees ∧ t.claimsAgree := by
  refine laws_of_empty (fun i => ?_) (fun p => ?_) rfl (fun a => ?_)
  · show (Vector.replicate 32 ({ gen := 0, record := none } : Slot))[i].record = none
    simp
  · simp only [State.takeLevels, State.cleared, tab_get_fin]
    rfl
  · show (Vector.replicate 4 Port.initial)[a].request = .empty
    simp [Port.initial]

theorem cleared_keepsEvery (s : State) (line : ResetLine) (cause : ResetCause) :
    s.KeepsEvery (s.cleared line cause).takeLevels := by
  obtain ⟨hn, ht, he, hc⟩ := cleared_laws s line cause
  exact ⟨⟨fun _ => hn, fun _ => ht, fun _ => hc⟩, fun _ => he⟩

theorem takeLevels_keeps (s : State) : s.Keeps s.takeLevels := by
  unfold State.takeLevels
  refine .of_pins ?_ (fun p => ?_) (fun p => ?_) ?_ ?_
  · rfl
  · simp only [tab_get_fin]
  · simp only [tab_get_fin]
  · rfl
  · rfl

theorem resetnRelease_keepsEvery (h : exec .resetnRelease s = .next t) : s.KeepsEvery t := by
  cases h
  split
  · exact .refl s
  · refine State.Keeps.every (.trans (.of_pins ?_ ?_ ?_ ?_ ?_) (takeLevels_keeps _))
    all_goals intros; rfl
  · refine State.Keeps.every (.trans (.of_pins ?_ ?_ ?_ ?_ ?_) (takeLevels_keeps _))
    all_goals intros; rfl

/-! ## Every command and every step -/

/-- Every command keeps each of the four laws. -/
theorem exec_keepsEvery (i : Instr) : ∀ s t, exec i s = .next t → s.KeepsEvery t := by
  induction i using Instr.byRequest with
  | request c =>
    intro s t h
    rw [exec_command] at h
    cases h
    exact request_keepsEvery s c
  | powerOn =>
    intro s t h
    cases h
    exact cleared_keepsEvery s _ _
  | resetnAssertion =>
    intro s t h
    cases h
    split
    · exact cleared_keepsEvery s _ _
    · exact .refl s
  | resetnRelease => exact fun _ _ => resetnRelease_keepsEvery
  | requestTransaction x => rintro s _ ⟨⟩; exact transfer_keepsEvery s 1 x
  | fetchTransaction x => rintro s _ ⟨⟩; exact transfer_keepsEvery s 2 x
  | statusTransaction x => rintro s _ ⟨⟩; exact transfer_keepsEvery s 3 x
  | headerType0Transaction x => rintro s _ ⟨⟩; exact transfer_keepsEvery s 0 x
  | unknownRequest => exact fun _ _ => unknownRequest_keepsEvery
  | closeVisit => exact fun _ _ => closeVisit_keepsEvery
  | collectVisit => exact fun _ _ => collectVisit_keepsEvery
  | linkFreeVisit => exact fun _ _ => linkFreeVisit_keepsEvery
  | findByTagVisit => exact fun _ _ => findByTagVisit_keepsEvery
  | startGroupVisit => exact fun _ _ => startGroupVisit_keepsEvery
  | forceCloseVisit => exact fun _ _ => forceCloseVisit_keepsEvery
  | restartVisit => exact fun _ _ => restartVisit_keepsEvery
  | leaseExpiry a => exact fun _ _ => leaseExpiry_keepsEvery
  | lapseSweep => exact fun _ _ => lapseSweep_keepsEvery
  | lapseSweepVisit => exact fun _ _ => lapseSweepVisit_keepsEvery
  | tick b =>
    intro s t h
    cases h
    split
    · exact (tickBase_follows s b).every
    · exact .refl s
  | edge p d => exact fun _ _ => edge_keepsEvery
  | assertion g => rintro s _ ⟨⟩; exact (lineEvent_follows s g true).every
  | deassertion g => rintro s _ ⟨⟩; exact (lineEvent_follows s g false).every
  | observedLevelChange p v => exact fun _ _ => observedLevelChange_keepsEvery

/-- R27, R110, R115, R134: a core-clock period. -/
theorem clock_keeps (s : State) : s.Keeps s.clock := by
  rcases clock_cases s with ⟨_, e⟩ | ⟨_, events, _, e⟩
  · rw [e]
    exact .refl s
  · rw [e]
    refine .of_pins rfl (fun p => ?_) (fun p => ?_) rfl rfl <;> simp only [State.sampled, tab_get_fin]

/-- Every step keeps each of the four laws: a command by `exec_keepsEvery`, a core-clock period by `clock_keeps`. -/
theorem step_keepsEvery (h : step s = .next t) : s.KeepsEvery t := by
  unfold step at h
  split at h
  · next c rest _ =>
    have hq : s.Keeps { s with pending := rest } := by refine .of_frame ?_ ?_ ?_ ?_ <;> rfl
    exact hq.every.trans (exec_keepsEvery c _ _ h)
  · cases h
    exact (clock_keeps s).every

/-- Settles O56: `step_keepsEvery`, whose records' part is that each operation of a record keeps its sets nested
(`offer_nested`, `Record.Keeps`). -/
theorem stepKeepsNoticeSetsNested : Obligations.StepKeepsNoticeSetsNested := by
  unfold Obligations.StepKeepsNoticeSetsNested
  exact fun s t hs h => (step_keepsEvery h).laws.nested hs

/-- Settles O57: `step_keepsEvery`, whose records' part is that each operation of a record keeps its timing sound
(`compare_timingSound`, `timingSound_committed`, `Record.Keeps`). -/
theorem stepKeepsCountersBelowPeriod : Obligations.StepKeepsCountersBelowPeriod := by
  unfold Obligations.StepKeepsCountersBelowPeriod
  exact fun s t hs h => (step_keepsEvery h).laws.timing hs

/-- Settles O58: `step_keepsEvery`, whose part of the engine is that the arbiter's choice makes the agreement
(`arbitrate_agrees`) and nothing else changes what is in service. -/
theorem stepKeepsOneOperationAtATime : Obligations.StepKeepsOneOperationAtATime := by
  unfold Obligations.StepKeepsOneOperationAtATime
  exact fun s t hs h => (step_keepsEvery h).agrees hs

/-- Settles O59: `step_keepsEvery`, whose part of the claims is that CREATE, MOVE, CONFIG_PIN and a retirement change a
claim and the record's pin together (`claimed_keepsLaws`, `setConfig_keeps`, `emptySlot_keepsLaws`). -/
theorem stepKeepsClaimsAgreed : Obligations.StepKeepsClaimsAgreed := by
  unfold Obligations.StepKeepsClaimsAgreed
  exact fun s t hs h => (step_keepsEvery h).laws.claims hs

/-- Settles O60: after power-on the part holds no record and no claim, and its engine is idle (`laws_of_empty`). -/
theorem lawsHoldAfterPowerOn : Obligations.LawsHoldAfterPowerOn := by
  unfold Obligations.LawsHoldAfterPowerOn
  refine laws_of_empty (fun i => ?_) (fun p => ?_) rfl (fun a => ?_)
  · show (Vector.replicate 32 ({ gen := 0, record := none } : Slot))[i].record = none
    simp
  · show (Vector.replicate 24 PinEntry.initial)[p].claim = none
    simp [PinEntry.initial]
  · show (Vector.replicate 4 Port.initial)[a].request = .empty
    simp [Port.initial]

end Sys2Proof.Machine
end

section
/-! PROOFS. The front of the queue, the resets (1.9, 5.1, 6.1, 9.7), and commands that cannot occur (log entry 2). -/

namespace Sys2Proof.Machine

variable {s t : State} {a : Agent}

/-- Settles O1: a step of a queue that is not empty is its front command. -/
theorem stepTakesFrontCommand : Obligations.StepTakesFrontCommand := by
  unfold Obligations.StepTakesFrontCommand
  exact fun c rest s => rfl

/-! ## The values after power-on -/

theorem reset_slots (i : SlotIx) : State.reset.slots[i] = { gen := 0, record := none } :=
  Vector.getElem_replicate ..

theorem reset_bases (b : Base) : State.reset.bases[b] = .initial :=
  Vector.getElem_replicate ..

theorem reset_links (i : LinkIx) : State.reset.links[i] = none :=
  Vector.getElem_replicate ..

theorem reset_pins (p : Pin) : State.reset.pins[p] = .initial :=
  Vector.getElem_replicate ..

theorem reset_sessions (a : Agent) : State.reset.sessions[a] = .initial :=
  Vector.getElem_replicate ..

theorem reset_ports (a : Agent) : State.reset.ports[a] = .initial :=
  Vector.getElem_replicate ..

/-- Settles O3: each table after power-on holds one value throughout (`reset_slots` and its like). -/
theorem stateAfterPowerOn : Obligations.StateAfterPowerOn := by
  unfold Obligations.StateAfterPowerOn
  refine ⟨reset_slots, fun b => reset_bases b, reset_links, fun p => ?pins, fun g => ?groups,
    fun a => ⟨reset_sessions a, reset_ports a⟩, rfl, rfl⟩
  case pins =>
    rw [reset_pins p]
    exact ⟨rfl, rfl, rfl, rfl⟩
  case groups => cases g <;> exact ⟨rfl, rfl, rfl⟩

/-! ## The resets -/

/-- R91: what the board puts on a pin is observed. -/
theorem levelAt_of_board {p : Pin} {v : Bool} (h : s.pins[p].board = some v) : s.levelAt p = v := by
  simp only [State.levelAt, h]

/-- R92, R115: the pins once the levels are taken. -/
theorem takeLevels_pins (s : State) (p : Pin) : s.takeLevels.pins[p] =
    { s.pins[p] with observed := s.levelAt p, filtered := s.levelAt p, narrow := false } := by
  simp only [State.takeLevels, tab_get_fin]

/-- R115: the groups once the levels are taken. -/
theorem takeLevels_group (s : State) (g : Group) : s.takeLevels.group g = (s.group g).taken := by
  cases g <;> rfl

/-- R92: the pins at a reset, before the levels are taken. -/
theorem cleared_pins (s : State) (line : ResetLine) (cause : ResetCause) (p : Pin) :
    (s.cleared line cause).pins[p] = { PinEntry.initial with board := s.pins[p].board } := by
  simp only [State.cleared, tab_get_fin]

/-- R114: the groups at a reset, before the levels are taken. -/
theorem cleared_group (s : State) (line : ResetLine) (cause : ResetCause) (g : Group) :
    (s.cleared line cause).group g = { InhibitGroup.initial with input := (s.group g).input } := by
  cases g <;> rfl

/-- R168: SDO is at high impedance while no transaction is received. -/
theorem sdoByte_of_receiver_none (h : s.receiver = none) : s.sdoByte = none := by
  unfold State.sdoByte
  rw [h]
  split
  · next h => cases h
  · rfl

/-- R24, R92, R152: every block after a reset. -/
theorem cleared_blocks (s : State) (line : ResetLine) (cause : ResetCause) :
    let t := (s.cleared line cause).takeLevels
    (∀ p : Pin, t.pins[p].config =
        { role := .off, drive := .pushPull, pull := .none, idle := .low, safe := .float, group := none } ∧
      t.pins[p].grants = 0 ∧ t.pins[p].claim = none ∧ t.pins[p].links = [] ∧
      t.pins[p].filtered = t.pins[p].observed ∧ t.pins[p].board = s.pins[p].board ∧
      (∀ v, s.pins[p].board = some v → t.pins[p].observed = v)) ∧
    (∀ g : Group, t.group g = { enabled := false, policy := .auto, state := .clear, line := (s.group g).input,
                                input := (s.group g).input, narrow := false }) := by
  intro t
  have hpin (p : Pin) : t.pins[p] = { PinEntry.initial with
      board := s.pins[p].board, observed := (s.cleared line cause).levelAt p
      filtered := (s.cleared line cause).levelAt p, narrow := false } := by
    rw [takeLevels_pins, cleared_pins]
  refine ⟨fun p => ?_, fun g => ?_⟩
  · rw [hpin p]
    refine ⟨rfl, rfl, rfl, rfl, rfl, rfl, fun v hv => ?_⟩
    dsimp only
    exact levelAt_of_board (by rw [cleared_pins, hv])
  · rw [takeLevels_group, cleared_group]
    rfl

/-- Settles O4: both resets clear the part and then take the levels (`cleared_blocks`). -/
theorem resetsClearEveryBlock : Obligations.ResetsClearEveryBlock := by
  unfold Obligations.ResetsClearEveryBlock
  intro s c hc
  rcases hc with rfl | ⟨rfl, hhigh⟩
  · obtain ⟨hpins, hgroups⟩ := cleared_blocks s (if s.resetn = .high then .high else .lowSincePowerOn) .powerOn
    exact ⟨_, rfl, reset_slots, reset_bases, reset_links, hpins, hgroups,
      fun a => ⟨reset_sessions a, reset_ports a⟩, rfl, rfl, rfl, sdoByte_of_receiver_none rfl, rfl, rfl⟩
  · obtain ⟨hpins, hgroups⟩ := cleared_blocks s .low s.engine.cause
    have he : exec .resetnAssertion s = .next (s.cleared .low s.engine.cause).takeLevels :=
      congrArg Host.Outcome.next (if_pos hhigh)
    exact ⟨_, he, reset_slots, reset_bases, reset_links, hpins, hgroups,
      fun a => ⟨reset_sessions a, reset_ports a⟩, rfl, rfl, rfl, sdoByte_of_receiver_none rfl, rfl, rfl⟩

/-- R92, R115: the levels taken by a release of RESETn are those of the pins and inputs as they stand. -/
theorem release_levels (hp : t.pins = s.pins) (hg : ∀ g, t.group g = s.group g) :
    (∀ p : Pin, t.takeLevels.pins[p] = { s.pins[p] with
        observed := t.takeLevels.pins[p].filtered, filtered := t.takeLevels.pins[p].filtered, narrow := false } ∧
      (∀ v, s.pins[p].board = some v → t.takeLevels.pins[p].filtered = v)) ∧
    (∀ g : Group, t.takeLevels.group g = { s.group g with line := (s.group g).input, narrow := false }) := by
  refine ⟨fun p => ?_, fun g => ?_⟩
  · rw [takeLevels_pins]
    exact ⟨by rw [hp], fun v hv => levelAt_of_board (by rw [hp, hv])⟩
  · rw [takeLevels_group, hg]
    rfl

/-- Settles O5: the release by the two values of a low RESETn (`release_levels`). -/
theorem resetnReleaseTakesLevels : Obligations.ResetnReleaseTakesLevels := by
  unfold Obligations.ResetnReleaseTakesLevels
  intro s hlow
  cases hr : s.resetn with
  | high => exact absurd hr hlow
  | low =>
    have he : exec .resetnRelease s = .next
        ({ s with resetn := .high, engine := { s.engine with cause := .resetLine } } : State).takeLevels := by
      simp only [exec, execResetnRelease, hr]
    have hg (g : Group) : State.group
        { s with resetn := .high, engine := { s.engine with cause := .resetLine } } g = s.group g := by
      cases g <;> rfl
    obtain ⟨hpins, hgroups⟩ := release_levels (s := s) (t := { s with
      resetn := .high, engine := { s.engine with cause := .resetLine } }) rfl hg
    exact ⟨_, he, rfl, rfl, hpins, hgroups, rfl, rfl, rfl, rfl, rfl, rfl, rfl, rfl⟩
  | lowSincePowerOn =>
    have he : exec .resetnRelease s = .next ({ s with resetn := .high } : State).takeLevels := by
      simp only [exec, execResetnRelease, hr]
    have hg (g : Group) : State.group { s with resetn := .high } g = s.group g := by cases g <;> rfl
    obtain ⟨hpins, hgroups⟩ := release_levels (s := s) (t := { s with resetn := .high }) rfl hg
    exact ⟨_, he, rfl, rfl, hpins, hgroups, rfl, rfl, rfl, rfl, rfl, rfl, rfl, rfl⟩

/-! ## Commands that cannot occur -/

/-- R158: the engine serves a request of this code. -/
theorem serves_iff {c : ReqCode} : s.serves c = true ↔
    ∃ a f, s.arbitrate.serving = some (a, f) ∧ f.code = c.byte := by
  unfold State.serves
  rcases s.arbitrate.serving with _ | ⟨a, f⟩
  · simp
  · simp

/-- R158: a request that the engine does not serve is not carried out. -/
theorem carryOut_not_served {c : ReqCode} (h : s.serves c = false)
    (body : Agent → List Byte → State → Except Status Reply) : s.carryOut c body = s := by
  rcases carryOut_cases s c body with e | ⟨a, f, hs, hc, _⟩
  · exact e
  · exact absurd (serves_iff.2 ⟨a, f, hs, hc⟩) (by rw [h]; exact Bool.false_ne_true)

/-- R162: a property of the work in progress. -/
theorem worksOn_false {P : Work → Bool} (h : s.worksOn P = false) {f : Frame} {w : Work}
    (hw : s.working = some (a, f, w)) : P w = false := by
  simpa only [State.worksOn, hw] using h

/-- R168: a stretch that cannot follow what the port has received. -/
theorem transfer_impossible {type : Nat} {x : Transfer} (h : s.canTransfer type x = false) :
    s.transfer type x = s := by
  refine if_pos ?_
  simp only [State.canTransfer, Bool.and_eq_false_iff, bne_eq_false_iff_eq, Bool.not_eq_false'] at h
  exact h

/-- R115: a line event that leaves the line, or while RESETn is low the input, where it is. -/
theorem lineEvent_same {g : Group} {v : Bool}
    (h : if s.resetn = .high then (s.group g).line = v else (s.group g).input = v) : s.lineEvent g v = s := by
  unfold State.lineEvent
  dsimp only
  split
  · next hlow =>
    rw [if_neg hlow] at h
    subst h
    cases g <;> rfl
  · next hhigh =>
    rw [if_pos (not_not.1 hhigh)] at h
    exact if_pos h

/-- Settles O6: by the row of the command, each of whose meanings looks for what `canOccur` asks. -/
theorem commandThatCannotOccurChangesNothing : Obligations.CommandThatCannotOccurChangesNothing := by
  unfold Obligations.CommandThatCannotOccurChangesNothing
  intro c
  induction c using Instr.byRequest with
  | request c =>
    intro s h
    rw [canOccur_command] at h
    rw [exec_command, carryOut_not_served h]
  | powerOn => intro s h; cases h
  | resetnAssertion =>
    intro s h
    exact congrArg Host.Outcome.next (if_neg (by simpa [canOccur] using h))
  | resetnRelease =>
    intro s h
    have hr : s.resetn = .high := by simpa [canOccur] using h
    simp only [exec, execResetnRelease, hr]
  | requestTransaction x | fetchTransaction x | statusTransaction x | headerType0Transaction x =>
    exact fun s h => congrArg Host.Outcome.next (transfer_impossible h)
  | unknownRequest =>
    intro s h
    refine congrArg Host.Outcome.next ?_
    dsimp only
    split
    · next a f hs =>
      have hk : knownCode f.code = true := by simpa [canOccur, State.servesUnknown, hs] using h
      exact if_pos hk
    · rfl
  | closeVisit | collectVisit | linkFreeVisit | findByTagVisit | startGroupVisit | forceCloseVisit | restartVisit =>
    intro s h
    refine congrArg Host.Outcome.next ?_
    split
    · next hw => exact absurd (worksOn_false h hw) (by simp)
    · rfl
  | leaseExpiry a => exact fun s h => congrArg Host.Outcome.next (if_neg (by simpa [canOccur] using h))
  | lapseSweep =>
    intro s h
    refine congrArg Host.Outcome.next ?_
    dsimp only
    split
    · next a ho =>
      refine if_neg fun hs => ?_
      simp only [canOccur, State.servesSweep, ho, hs, beq_self_eq_true] at h
      cases h
    · rfl
  | lapseSweepVisit =>
    intro s h
    refine congrArg Host.Outcome.next ?_
    split
    · next a i ho => simp [canOccur, State.sweeps, ho] at h
    · rfl
  | tick b => exact fun s h => congrArg Host.Outcome.next (if_neg (by simpa [canOccur] using h))
  | edge p d =>
    intro s h
    refine congrArg Host.Outcome.next (if_pos ?_)
    by_cases hr : s.resetn = .high
    · exact .inr (by simpa [canOccur, hr] using h)
    · exact .inl hr
  | assertion g | deassertion g =>
    intro s h
    refine congrArg Host.Outcome.next (lineEvent_same ?_)
    by_cases hr : s.resetn = .high <;> simpa [canOccur, hr] using h
  | observedLevelChange p v => intro s h; cases h

end Sys2Proof.Machine
end

section
/-! PROOFS. Notices offered to the sets (R144), and the arbiter (R155, R156, R161). -/

namespace Sys2Proof.Machine

variable {s t : State} {a : Agent}

/-! ## Notices -/

theorem Notice.index_injective {m n : Notice} (h : m.index = n.index) : m = n := by
  revert h
  cases m <;> cases n <;> decide

/-- R178: a notice joined to a set. -/
theorem hasNotice_or_bit (x : NoticeSet) (m n : Notice) :
    hasNotice (x ||| n.bit) m = (hasNotice x m || m == n) := by
  rw [hasNotice, BitVec.getLsbD_or, Notice.getLsbD_bit, hasNotice]
  congr 1
  rw [Bool.eq_iff_iff, decide_eq_true_eq, beq_iff_eq]
  exact ⟨Notice.index_injective, congrArg _⟩

theorem offer_of_not_enabled {r : Record} {n : Notice} (h : hasNotice r.enableSet n = false) : r.offer n = r :=
  if_neg (by simp [h])

theorem offer_first {r : Record} {n : Notice} (he : hasNotice r.enableSet n = true)
    (hp : hasNotice r.pendingSet n = false) : r.offer n = { r with pendingSet := r.pendingSet ||| n.bit } := by
  rw [Record.offer, if_pos he, if_neg (by simp [hp])]

theorem offer_again {r : Record} {n : Notice} (he : hasNotice r.enableSet n = true)
    (hp : hasNotice r.pendingSet n = true) : r.offer n = { r with againSet := r.againSet ||| n.bit } := by
  rw [Record.offer, if_pos he, if_pos hp]

/-- Settles O31: `offer` by its three cases, and `offerAll` and `eventsOf` along the list of what occurred. -/
theorem noticeIsOfferedToTheSets : Obligations.NoticeIsOfferedToTheSets := by
  unfold Obligations.NoticeIsOfferedToTheSets
  refine ⟨fun r n => ⟨offer_of_not_enabled, fun he hp => ?first, fun he hp => ?again⟩, ?occurrences⟩
  case first =>
    rw [offer_first he hp]
    exact ⟨rfl, fun m => hasNotice_or_bit _ m n⟩
  case again =>
    rw [offer_again he hp]
    exact ⟨rfl, fun m => hasNotice_or_bit _ m n⟩
  case occurrences =>
    intro notices events occ
    induction occ with
    | nil => exact ⟨fun _ => rfl, rfl⟩
    | cons o occ ih =>
      obtain ⟨ihn, ihe⟩ := ih
      refine ⟨fun r => ?_, ?_⟩
      · have hcons : r.offerAll (o :: occ) = (r.offerAll [o]).offerAll occ := rfl
        rw [hcons, ihn, List.flatMap_cons, List.foldl_append]
        cases o <;> rfl
      · have hcons : eventsOf (o :: occ) = eventsOf [o] ++ eventsOf occ := List.filterMap_append (l := [o])
        rw [hcons, ihe, List.flatMap_cons]
        cases o <;> rfl

/-! ## The arbiter -/

/-- The first number of a range with a property. -/
theorem find?_finRange {n : Nat} {p : Fin n → Bool} {k : Fin n} :
    (List.finRange n).find? p = some k ↔ p k = true ∧ ∀ j, j < k → p j = false := by
  rw [List.find?_eq_some_iff_getElem]
  simp only [List.getElem_finRange, List.length_finRange, Bool.not_eq_true', Fin.cast_mk]
  constructor
  · rintro ⟨hp, i, hi, rfl, hj⟩
    exact ⟨hp, fun j hlt => hj j.val hlt⟩
  · rintro ⟨hp, hj⟩
    exact ⟨hp, k.val, k.isLt, rfl, fun j hlt => hj ⟨j, by omega⟩ hlt⟩

/-- R156: the arbiter's search visits the agents in turn after the last-served one. -/
theorem searchOrder_eq (last : Agent) : searchOrder last = (List.finRange 4).map (last + 1 + ·) := by
  revert last
  decide

/-- R156: an idle engine chooses the first agent after the last-served one whose slot is queued. -/
theorem arbitrate_first {k : Fin 4} {slot : RequestSlot} {sweep : Bool} (ho : s.engine.op = none)
    (ha : a = s.engine.lastServed + 1 + k)
    (hbefore : ∀ j : Fin 4, j < k → s.ports[s.engine.lastServed + 1 + j].request.chosen = none)
    (hc : s.ports[a].request.chosen = some (slot, sweep)) : s.arbitrate = s.choose a slot sweep := by
  have hfind : (searchOrder s.engine.lastServed).find? (fun b => (s.ports[b].request.chosen).isSome) = some a := by
    rw [searchOrder_eq, List.find?_map, (find?_finRange (k := k)).2]
    · rw [ha]
      rfl
    · refine ⟨?_, fun j hj => ?_⟩
      · rw [Function.comp_apply, ← ha, hc]
        rfl
      · rw [Function.comp_apply, hbefore j hj]
        rfl
  unfold State.arbitrate
  rw [ho]
  dsimp only
  rw [hfind]
  dsimp only
  rw [hc]

/-- R156: at an idle engine where one slot alone is queued, that one is chosen. -/
theorem arbitrate_only {slot : RequestSlot} {sweep : Bool} (ho : s.engine.op = none)
    (hother : ∀ b : Agent, b ≠ a → s.ports[b].request.chosen = none)
    (hc : s.ports[a].request.chosen = some (slot, sweep)) : s.arbitrate = s.choose a slot sweep := by
  have hk : ∀ l b : Agent, ∃ k : Fin 4, b = l + 1 + k ∧ ∀ j : Fin 4, j < k → l + 1 + j ≠ b := by decide
  obtain ⟨k, ha, hne⟩ := hk s.engine.lastServed a
  exact arbitrate_first ho ha (fun j hj => hother _ (hne j hj)) hc

/-- R155: an arrival at an EMPTY slot. -/
theorem arrive_empty {f : Frame} (he : s.ports[a].request = .empty) :
    s.arrive a f = (s.setPort a { s.ports[a] with
      request := .queued f, response := none
      lost := s.ports[a].lost || s.ports[a].response.isSome }).arbitrate := by
  simp only [State.arrive, he]

/-- R155: an arrival at any other slot. -/
theorem arrive_occupied {f : Frame} (hn : s.ports[a].request ≠ .empty) :
    s.arrive a f = s.setPort a { s.ports[a] with overrun := true } := by
  unfold State.arrive
  dsimp only
  split
  · next he => exact absurd he hn
  · rfl

/-- A port replaced twice. -/
theorem put_put {α : Type} {n : Nat} (v : Vector α n) (i : Fin n) (x y : α) : put (put v i x) i y = put v i y :=
  table_ext fun j => by
    simp only [put_get_fin]
    split <;> rfl

/-- Settles O8: an arrival by the slot it finds, and the arbiter's choice of the one slot queued
(`arbitrate_only`). -/
theorem arrivalFillsRequestSlot : Obligations.ArrivalFillsRequestSlot := by
  unfold Obligations.ArrivalFillsRequestSlot
  intro s a f
  refine ⟨fun he o ho => ?busy, fun he ho hn => ?idle, fun hn => arrive_occupied hn⟩
  case busy =>
    rw [arrive_empty he]
    exact arbitrate_busy (o := o) ho
  case idle =>
    have hother (b : Agent) (hb : b ≠ a) (x : Port) : (s.setPort a x).ports[b].request.chosen = none := by
      rw [setPort_ports, put_get_fin, if_neg hb]
      exact Option.isNone_iff_eq_none.1 (hn b)
    rw [arrive_empty he, arbitrate_only (s := s.setPort a _) (slot := .active f) (sweep := false) ho
      fun b hb => hother b hb _]
    · simp only [State.choose, State.setPort, put_put, put_get_fin, if_true]
    · rw [setPort_ports, put_get_fin, if_pos rfl]
      rfl

/-- Settles O12: the posting unfolded once, and the arbiter's choice (`arbitrate_first`). -/
theorem postingThenRoundRobinChoice : Obligations.PostingThenRoundRobinChoice := by
  unfold Obligations.PostingThenRoundRobinChoice
  intro s
  refine ⟨fun a r => rfl, fun o ho => arbitrate_busy ho,
    fun ho hn => arbitrate_nothing fun b => Option.isNone_iff_eq_none.1 (hn b), fun ho k => ?_⟩
  intro a hbefore
  have hb (j : Fin 4) (hj : j < k) := Option.isNone_iff_eq_none.1 (hbefore j hj)
  refine ⟨fun f hq => ?request, fun hq => ?sweep⟩
  case request => exact arbitrate_first ho rfl hb (by rw [hq]; rfl)
  case sweep => exact arbitrate_first ho rfl hb (by rw [hq]; rfl)

end Sys2Proof.Machine
end

section
/-! PROOFS. Inhibit groups (R115, R116, R120 to R123), and what a pin shows and hands on (R91 to R94, R110, R111). -/

namespace Sys2Proof.Machine

variable {s t : State} {g : Group} {p : Pin}

/-! ## Holds and releases -/

/-- R114: a group is forcing unless it is CLEAR. -/
theorem forcing_iff {x : InhibitGroup} : x.forcing = true ↔ x.state ≠ .clear := by
  simp [InhibitGroup.forcing]

theorem forcing_false_iff {x : InhibitGroup} : x.forcing = false ↔ x.state = .clear := by
  simp [InhibitGroup.forcing]

/-- R120: a record that takes a hold. -/
theorem settled_takeHold (r : Record) : settled r.takeHold =
    if r.held = .clear then ({ r with held := .held } : Record).offer .held else { r with held := .held } := by
  unfold Record.takeHold
  cases hh : r.held <;> (cases r; cases hh; rfl)

/-- R122, R123: a record that is owed a release. -/
theorem settled_oweRelease (r : Record) : settled r.oweRelease =
    if r.held = .held then
      (if r.state = .running ∧ r.kind.periodic = true then { r with held := .owed }
        else ({ r with held := .clear } : Record).offer .released)
    else r := by
  unfold Record.oweRelease
  cases hh : r.held with
  | clear => rfl
  | held =>
    dsimp only
    rw [if_pos rfl]
    split <;> rfl
  | owed => rfl

/-- R120, R122: the records whose claimed pin has a group. -/
theorem inGroup_iff {r : Record} :
    s.inGroup g r = true ↔ ∃ k, r.pin = some k ∧ s.pins[k].config.group = some g := by
  unfold State.inGroup
  cases r.pin with
  | none => simp
  | some k => simp only [Option.some.injEq, exists_eq_left', beq_iff_eq]

/-- R116: everything that a change of a group's state can do: the state alone, a hold, or a release. -/
theorem setGroupState_cases (s : State) (g : Group) (x : GroupState) :
    let t := s.setGroup g { s.group g with state := x }
    ((s.group g).state = .clear ∧ x ≠ .clear ∧ s.setGroupState g x = t.holdAll g) ∨
      ((s.group g).state ≠ .clear ∧ x = .clear ∧ s.setGroupState g x = t.releaseAll g) ∨
      (((s.group g).state = .clear ↔ x = .clear) ∧ s.setGroupState g x = t) := by
  intro t
  have hafter : (t.group g).state = x := by rw [setGroup_group, if_pos rfl]
  unfold State.setGroupState
  dsimp only
  split
  · next hb ha =>
    exact .inl ⟨forcing_false_iff.1 hb, hafter ▸ forcing_iff.1 ha, rfl⟩
  · next hb ha => exact .inr (.inl ⟨forcing_iff.1 hb, hafter ▸ forcing_false_iff.1 ha, rfl⟩)
  · next h1 h2 =>
    refine .inr (.inr ⟨?_, rfl⟩)
    rw [← forcing_false_iff, ← hafter, ← forcing_false_iff]
    cases hb : (s.group g).forcing <;> cases ha : (t.group g).forcing
    · simp
    · exact (h1 hb ha).elim
    · exact (h2 hb ha).elim
    · simp

/-- A group replaced leaves everything but the groups. -/
theorem setGroup_frame (s : State) (g : Group) (x : InhibitGroup) :
    s.setGroup g x = { s with groupA := (s.setGroup g x).groupA, groupB := (s.setGroup g x).groupB } := by
  cases g <;> rfl

/-- A group replaced and every record changed leave everything but the groups and the record table. -/
theorem mapRecords_setGroup_frame (s : State) (g : Group) (y : InhibitGroup) (f : Record → Record) :
    (s.setGroup g y).mapRecords f = { s with
      slots := ((s.setGroup g y).mapRecords f).slots
      groupA := ((s.setGroup g y).mapRecords f).groupA, groupB := ((s.setGroup g y).mapRecords f).groupB } := by
  rw [State.mapRecords, setGroup_frame]

/-- A change to every record leaves the groups. -/
theorem mapRecords_group (s : State) (f : Record → Record) (k : Group) : (s.mapRecords f).group k = s.group k := by
  cases k
  · exact mapRecords_groupA s f
  · exact mapRecords_groupB s f

/-- R116: a change of a group's state leaves everything but the record table and the groups. -/
theorem setGroupState_frame (s : State) (g : Group) (x : GroupState) : s.setGroupState g x =
    { s with
      slots := (s.setGroupState g x).slots
      groupA := (s.setGroupState g x).groupA, groupB := (s.setGroupState g x).groupB } := by
  rcases setGroupState_cases s g x with ⟨_, _, e⟩ | ⟨_, _, e⟩ | ⟨_, e⟩ <;> rw [e]
  · exact mapRecords_setGroup_frame s g _ _
  · exact mapRecords_setGroup_frame s g _ _
  · rw [setGroup_slots]
    exact setGroup_frame s g _

/-- R120: the slots after a hold. -/
theorem holdAll_slot (s : State) (g : Group) (i : SlotIx) : (s.holdAll g).slots[i] =
    { gen := s.slots[i].gen
      record := s.slots[i].record.map fun r => if s.inGroup g r then settled r.takeHold else r } :=
  mapRecords_slot s _ i

/-- R122: the slots after a release. -/
theorem releaseAll_slot (s : State) (g : Group) (i : SlotIx) : (s.releaseAll g).slots[i] =
    { gen := s.slots[i].gen
      record := s.slots[i].record.map fun r => if s.inGroup g r then settled r.oweRelease else r } :=
  mapRecords_slot s _ i

/-- R116: the groups after a change of a group's state. -/
theorem setGroupState_group (s : State) (g k : Group) (x : GroupState) :
    (s.setGroupState g x).group k = if k = g then { s.group g with state := x } else s.group k := by
  rcases setGroupState_cases s g x with ⟨_, _, e⟩ | ⟨_, _, e⟩ | ⟨_, e⟩
  · rw [e, State.holdAll, mapRecords_group, setGroup_group]
  · rw [e, State.releaseAll, mapRecords_group, setGroup_group]
  · rw [e, setGroup_group]

/-- Settles O55: by the cases of a change of state (`setGroupState_cases`), record by record. -/
theorem groupTransitionHoldsAndReleases : Obligations.GroupTransitionHoldsAndReleases := by
  unfold Obligations.GroupTransitionHoldsAndReleases
  intro s g x t mine
  refine ⟨?_, fun k hk => ?_, setGroupState_frame s g x, fun i => ?records⟩
  · exact (setGroupState_group s g g x).trans (if_pos rfl)
  · exact (setGroupState_group s g k x).trans (if_neg hk)
  case records =>
    have hslots := setGroup_slots s g { s.group g with state := x }
    have hmine (r : Record) : (s.setGroup g { s.group g with state := x }).inGroup g r = true ↔ mine r := by
      rw [inGroup_iff, setGroup_pins]
    have htable (u : State) (e : s.setGroupState g x = u) : t.slots[i] = u.slots[i] :=
      congrArg (fun u : State => u.slots[i]) e
    rcases setGroupState_cases s g x with ⟨hb, ha, e⟩ | ⟨hb, ha, e⟩ | ⟨hsame, e⟩
    · rw [htable _ e, holdAll_slot, hslots]
      refine ⟨rfl, fun hn => by rw [hn]; rfl, fun r hr => ?_⟩
      rw [hr, Option.map_some]
      refine ⟨fun h => ?_, fun hm _ _ => ?_, fun _ h => absurd hb h⟩
      · rw [if_neg fun hg => h.elim (fun hn => hn ((hmine r).1 hg)) fun hiff => ha (hiff.1 hb)]
      · rw [if_pos ((hmine r).2 hm), settled_takeHold]
    · rw [htable _ e, releaseAll_slot, hslots]
      refine ⟨rfl, fun hn => by rw [hn]; rfl, fun r hr => ?_⟩
      rw [hr, Option.map_some]
      refine ⟨fun h => ?_, fun _ h => absurd h hb, fun hm _ _ => ?_⟩
      · rw [if_neg fun hg => h.elim (fun hn => hn ((hmine r).1 hg)) fun hiff => hb (hiff.2 ha)]
      · rw [if_pos ((hmine r).2 hm), settled_oweRelease]
    · rw [htable _ e, hslots]
      exact ⟨rfl, id, fun r hr =>
        ⟨fun _ => hr, fun _ h h' => absurd (hsame.1 h) h', fun _ h h' => absurd (hsame.2 h') h⟩⟩

/-! ## Line events -/

/-- R115: a line event of a group while RESETn is low. -/
theorem lineEvent_low {v : Bool} (h : s.resetn ≠ .high) :
    s.lineEvent g v = s.setGroup g { s.group g with input := v } :=
  if_pos h

/-- R115, R116: a line event that changes the line level while RESETn is high. -/
theorem lineEvent_high {v : Bool} (h : s.resetn = .high) (hl : (s.group g).line ≠ v) :
    s.lineEvent g v =
      let t := s.setGroup g ((s.group g).setLine v)
      if (s.group g).enabled = true then
        t.setGroupState g (if v then (s.group g).state.asserted else (s.group g).state.deasserted (s.group g).policy)
      else t :=
  (if_neg (not_not.2 h)).trans (if_neg hl)

/-- R116: the state after an assertion. -/
theorem asserted_eq (x : GroupState) : x.asserted = .active := by cases x <;> rfl

/-- R116: the state after a deassertion. -/
theorem deasserted_eq (x : GroupState) (pol : Policy) :
    x.deasserted pol = if x = .active then (if pol = .auto then .clear else .latched) else x := by
  cases x <;> cases pol <;> rfl

/-- Settles O54: a line event by RESETn and the enable (`lineEvent_high`, `lineEvent_low`). -/
theorem lineEventsMoveGroupState : Obligations.LineEventsMoveGroupState := by
  unfold Obligations.LineEventsMoveGroupState
  intro s g x sees
  refine ⟨fun hhigh => ⟨fun hl => ?assertion, fun hl => ?deassertion⟩, fun hlow => ?low⟩
  case assertion =>
    have he : exec (.assertion g) s = .next _ :=
      congrArg Host.Outcome.next (lineEvent_high hhigh (v := true) (by rw [hl]; exact Bool.false_ne_true))
    rw [asserted_eq] at he
    exact ⟨fun hd => he.trans (congrArg _ (if_neg (by rw [hd]; exact Bool.false_ne_true))),
      fun hen => he.trans (congrArg _ (if_pos hen))⟩
  case deassertion =>
    have he : exec (.deassertion g) s = .next _ :=
      congrArg Host.Outcome.next (lineEvent_high hhigh (v := false) (by rw [hl]; exact Bool.true_eq_false_eq_False))
    rw [deasserted_eq] at he
    exact ⟨fun hd => he.trans (congrArg _ (if_neg (by rw [hd]; exact Bool.false_ne_true))),
      fun hen => he.trans (congrArg _ (if_pos hen))⟩
  case low => exact ⟨congrArg Host.Outcome.next (lineEvent_low hlow), congrArg Host.Outcome.next (lineEvent_low hlow)⟩

/-! ## What a pin shows -/

/-- R93: the force on a pin. -/
theorem pinForced_iff : s.pinForced p = true ↔
    ∃ g, s.pins[p].config.group = some g ∧ (s.group g).state ≠ .clear := by
  unfold State.pinForced
  cases s.pins[p].config.group with
  | none => simp
  | some g => simp only [Option.some.injEq, exists_eq_left', forcing_iff]

/-- R93 row 1: a pin that is not OUTPUT. -/
theorem resolved_not_output (h : s.pins[p].config.role ≠ .output) : s.resolved p = none :=
  if_neg h

/-- R93 row 2: an OUTPUT pin under force. -/
theorem resolved_forced (h : s.pins[p].config.role = .output) (hf : s.pinForced p = true) :
    s.resolved p = s.pins[p].config.safe.value :=
  (if_pos h).trans (if_pos hf)

/-- R93: an OUTPUT pin that is not under force, by its claim. -/
theorem resolved_not_forced (h : s.pins[p].config.role = .output) (hf : ¬ s.pinForced p = true) :
    s.resolved p = match s.pins[p].claim.bind s.record? with
      | some r => if r.held = .clear then some (r.output != r.invert) else s.pins[p].config.safe.value
      | none => s.pins[p].config.idle.value :=
  (if_pos h).trans (if_neg hf)

/-- R94: the shown level is the resolved value as the drive shows it. -/
theorem shown_eq (s : State) (p : Pin) : s.shown p =
    match s.resolved p with
    | some false => .drives0
    | some true => (match s.pins[p].config.drive with | .pushPull => .drives1 | .openDrain => .released)
    | none => .released := by
  unfold State.shown
  rcases s.resolved p with _ | _ | _
  · rfl
  · rfl
  · cases s.pins[p].config.drive <;> rfl

/-- R91, R94, R109: the level at a pin on which the board puts nothing. -/
theorem levelAt_free (h : s.pins[p].board = none) :
    (s.shown p = .drives0 → s.levelAt p = false) ∧ (s.shown p = .drives1 → s.levelAt p = true) ∧
      (s.shown p = .released → s.pins[p].config.pull = .up → s.levelAt p = true) ∧
      (s.shown p = .released → s.pins[p].config.pull = .down → s.levelAt p = false) := by
  refine ⟨fun hs => ?_, fun hs => ?_, fun hs hp => ?_, fun hs hp => ?_⟩
  · simp only [State.levelAt, h, hs]
  · simp only [State.levelAt, h, hs]
  · simp only [State.levelAt, h, hs, hp]
  · simp only [State.levelAt, h, hs, hp]

/-- R93, R94: what a pin shows does not depend on the board. -/
theorem shown_setBoard (s : State) (p : Pin) (v : Option Bool) :
    (s.setPin p { s.pins[p] with board := v }).shown p = s.shown p := by
  have hpin : (s.setPin p { s.pins[p] with board := v }).pins[p] = { s.pins[p] with board := v } := by
    rw [setPin_pins, put_get_fin, if_pos rfl]
  have hforced : (s.setPin p { s.pins[p] with board := v }).pinForced p = s.pinForced p := by
    simp only [State.pinForced, hpin]
    rfl
  have hresolved : (s.setPin p { s.pins[p] with board := v }).resolved p = s.resolved p := by
    simp only [State.resolved, hpin, hforced]
    rfl
  simp only [State.shown, hresolved, hpin]

/-- Settles O51: the resolved value row by row of R93's table, shown by R94, and the level at the pin of which the
board's change is a sample. -/
theorem pinShowsResolvedLevel : Obligations.PinShowsResolvedLevel := by
  unfold Obligations.PinShowsResolvedLevel
  intro s p e forced shows level
  have hforced : forced ↔ s.pinForced p = true := pinForced_iff.symm
  have hlevel (x : PinLevel) : x.value = level x := by cases x <;> rfl
  have hshows {v : Option Bool} (h : s.resolved p = v) : shows v := by
    have hs := shown_eq s p
    rw [h] at hs
    refine hs.trans ?_
    rcases v with _ | _ | _ <;> rfl
  refine ⟨fun h => hshows (resolved_not_output h),
    fun h hf => hlevel _ ▸ hshows (resolved_forced h (hforced.1 hf)), fun h hf hc => ?idle,
    fun h r ho hf hc hr => ?claimed, fun board => ?board⟩
  case idle =>
    refine hlevel _ ▸ hshows ((resolved_not_forced h fun hp => hf (hforced.2 hp)).trans ?_)
    have hc : s.pins[p].claim = none := hc
    rw [hc]
    rfl
  case claimed =>
    have hres := resolved_not_forced ho fun hp => hf (hforced.2 hp)
    have hc : s.pins[p].claim.bind s.record? = some r := by
      have hc : s.pins[p].claim = some h := hc
      rw [hc]
      exact hr
    rw [hc] at hres
    exact ⟨fun hh => hlevel _ ▸ hshows (hres.trans (if_neg hh)), fun hh => hshows (hres.trans (if_pos hh))⟩
  case board =>
    have hpin : (s.setPin p { e with board := board }).pins[p] = { e with board := board } := by
      rw [setPin_pins, put_get_fin, if_pos rfl]
    have hshown := shown_setBoard s p board
    refine ⟨(s.setPin p { e with board := board }).levelAt p, congrArg Host.Outcome.next ?_,
      fun w hw => levelAt_of_board (by rw [hpin]; exact hw), fun hn => ?_⟩
    · simp only [State.setPin, State.draw, put_get_fin, if_true, put_put]
      rfl
    · have hfree := levelAt_free (s := s.setPin p { e with board := board }) (p := p) (by rw [hpin]; exact hn)
      rwa [hshown, hpin] at hfree

/-! ## Edges -/

/-- R111: the bases that count an edge. -/
theorem takesEdge_iff {b : TimeBase} {d : EdgeDir} :
    b.takesEdge p d = true ↔ b.running = true ∧ b.source = .pin p d := by
  simp [TimeBase.takesEdge]

/-- R110, R111: an edge that changes the filtered level, by the role of its pin. -/
theorem exec_edge {d : EdgeDir} (hr : s.resetn = .high) (hf : s.pins[p].filtered ≠ edgeLevel d) :
    exec (.edge p d) s = .next (match s.pins[p].config.role with
      | .off | .output => s.setFiltered p (edgeLevel d)
      | .cueInput => (s.setFiltered p (edgeLevel d)).walk (.pin p) (edgeEvent d)
      | .countInput => (s.setFiltered p (edgeLevel d)).countEdge p d) := by
  refine congrArg Host.Outcome.next ((if_neg fun h => h.elim (fun h => h hr) hf).trans ?_)
  cases s.pins[p].config.role <;> rfl

/-- Settles O50: an edge by the role of its pin (`exec_edge`), the ticks of a count pin in some order of the bases
(`anyOrder_perm`). -/
theorem edgeIsHandedOnByRole : Obligations.EdgeIsHandedOnByRole := by
  unfold Obligations.EdgeIsHandedOnByRole
  intro s p d hhigh hf t
  have he := exec_edge hhigh hf
  refine ⟨fun hrole => ?quiet, fun hrole => ?cue, fun hrole => ?count⟩
  case quiet => rcases hrole with h | h <;> (rw [h] at he; exact he)
  case cue =>
    rw [hrole] at he
    cases d <;> exact he
  case count =>
    rw [hrole] at he
    let bases := (List.finRange 4).filter fun b => t.bases[b].takesEdge p d
    have hperm : (t.anyOrder (bases.map fun b => [b])).Perm bases := by
      have h := anyOrder_perm t (bases.map fun b => [b])
      rwa [← List.flatMap_def, List.flatMap_singleton'] at h
    refine ⟨_, hperm.nodup_iff.2 ((List.nodup_finRange 4).filter _), fun b => ?_, he⟩
    rw [hperm.mem_iff, List.mem_filter, takesEdge_iff]
    exact ⟨fun h => h.2, fun h => ⟨List.mem_finRange b, h⟩⟩

end Sys2Proof.Machine
end

section
/-! PROOFS. Walks (R79 to R83), ticks (R35, R36, R82, R89) and retirement (R15 to R17, R70), slot by slot. -/

namespace Sys2Proof.Machine

variable {s t : State}

/-! ## Walks -/

/-- R79 to R81, R83: what one link of a walk for an event does to the record of a handle. -/
def Record.cued (r : Record) (links : Vector (Option Link) 64) (h : Handle) (ev : SourceEvent) (k : LinkIx) : Record :=
  match links[k] with
  | some l =>
    if l.enabled = true ∧ l.target = h ∧ (l.event = ev ∨ l.event = .either ∧ (ev = .rise ∨ ev = .fall)) then
      if r.cue.isSome then ({ r with cue := some { action := l.action, link := k } } : Record).offer .cueLost
      else { r with cue := some { action := l.action, link := k } }
    else r
  | none => r

/-- R83: the match of a link's source event. -/
theorem matches_iff {want got : SourceEvent} :
    want.matches got = true ↔ want = got ∨ want = .either ∧ (got = .rise ∨ got = .fall) := by
  simp [SourceEvent.matches]

/-- R2: a slot that holds a record is current at its own handle. -/
theorem record?_handleAt {i : SlotIx} : s.record? (s.handleAt i) = s.slots[i].record :=
  if_pos rfl

/-- R2: a handle that names a record is that of its slot. -/
theorem handleAt_of_record? {h : Handle} {r : Record} (hr : s.record? h = some r) : s.handleAt h.slot = h := by
  rw [State.handleAt, (record?_eq_some.1 hr).1]

/-- R79: every slot after one link of a walk: a record hears the link's cue at its own handle. -/
theorem walkLink_slot (s : State) (ev : SourceEvent) (k : LinkIx) (i : SlotIx) :
    (s.walkLink ev k).slots[i] = { gen := s.slots[i].gen
                                   record := s.slots[i].record.map (·.cued s.links (s.handleAt i) ev k) } := by
  have hsame (h : ∀ r, s.slots[i].record = some r → r.cued s.links (s.handleAt i) ev k = r) :
      s.slots[i] = { gen := s.slots[i].gen
                     record := s.slots[i].record.map (·.cued s.links (s.handleAt i) ev k) } := by
    cases hr : s.slots[i].record with
    | none => rw [Option.map_none, ← hr]
    | some r => rw [Option.map_some, h r hr, ← hr]
  cases hl : s.links[k] with
  | none =>
    have hw : s.walkLink ev k = s := by simp only [State.walkLink, hl]
    rw [hw]
    exact hsame fun r _ => by simp only [Record.cued, hl]
  | some l =>
    by_cases hm : (l.enabled && l.event.matches ev) = true
    · have hw : s.walkLink ev k = s.deliver l.target { action := l.action, link := k } := by
        simp only [State.walkLink, hl, hm, if_true]
      rw [Bool.and_eq_true, matches_iff] at hm
      rcases deliver_cases s l.target { action := l.action, link := k } with ⟨hn, e⟩ | ⟨r, hr, e⟩
      · rw [hw, e]
        refine hsame fun r hr => ?_
        have hne : l.target ≠ s.handleAt i := fun h => by
          rw [h, record?_handleAt, hr] at hn
          cases hn
        simp only [Record.cued, hl, hne, false_and, and_false, if_false]
      · have hh := handleAt_of_record? hr
        obtain ⟨_, hs⟩ := record?_eq_some.1 hr
        rw [hw, e, setRecord_slots, put_get_fin]
        split
        · next hi =>
          subst hi
          rw [hs, hh]
          simp only [Option.map_some, Record.cued, hl, hm, true_and, if_true]
        · next hi =>
          refine hsame fun r' _ => ?_
          have hne : l.target ≠ s.handleAt i := fun h => hi (by rw [h]; rfl)
          simp only [Record.cued, hl, hne, false_and, and_false, if_false]
    · have hw : s.walkLink ev k = s := by simp only [State.walkLink, hl, hm]; rfl
      rw [hw]
      refine hsame fun r _ => ?_
      rw [Bool.and_eq_true, matches_iff] at hm
      simp only [Record.cued, hl]
      exact if_neg fun ⟨he, _, hev⟩ => hm ⟨he, hev⟩

/-- R79: every slot after a walk along a list. -/
theorem walkList_slot (l : List LinkIx) (s : State) (ev : SourceEvent) (i : SlotIx) :
    (l.foldl (fun t k => t.walkLink ev k) s).slots[i] =
      { gen := s.slots[i].gen
        record := s.slots[i].record.map fun r => l.foldl (·.cued s.links (s.handleAt i) ev ·) r } := by
  induction l generalizing s with
  | nil => simp
  | cons k l ih =>
    have hlinks : (s.walkLink ev k).links = s.links := by rw [walkLink_frame]
    have hhandle : (s.walkLink ev k).handleAt i = s.handleAt i := by
      rw [State.handleAt, walkLink_slot, State.handleAt]
    rw [List.foldl_cons, ih, hlinks, hhandle, walkLink_slot, Option.map_map]
    rfl

/-- Settles O46: a walk changes the record table alone (`walk_frame`), each record by the links of the list in order
(`walkList_slot`). -/
theorem walkDeliversInListOrder : Obligations.WalkDeliversInListOrder := by
  unfold Obligations.WalkDeliversInListOrder
  intro s src ev t
  refine ⟨walk_frame s src ev, fun i => ?_⟩
  have h : t.slots[i] = _ := walkList_slot (s.linkList src) s ev i
  rw [h]
  exact ⟨rfl, rfl⟩

/-! ## Ticks -/

/-- R35, R82: the events that the record of a slot raises at a tick of the base. -/
def State.tickEvents (s : State) (b : Base) (i : SlotIx) : List (Handle × SourceEvent) :=
  match s.slots[i].record with
  | some r =>
    if r.base = b then (eventsOf (r.takeTick s.bases[b].latch).2).map fun ev => (s.handleAt i, ev) else []
  | none => []

/-- R82: the queues of a tick are those of the slots that raise events. -/
theorem tickQueues_eq (b : Base) :
    s.tickQueues b = ((List.finRange 32).map (s.tickEvents b)).filter fun q => !q.isEmpty := by
  simp only [State.tickQueues, State.takings]
  induction List.finRange 32 with
  | nil => rfl
  | cons i l ih =>
    have hi : s.tickEvents b i = (match s.slots[i].record with
        | some r => if r.base = b then some (i, r.takeTick s.bases[b].latch) else none
        | none => none).elim [] fun x => (eventsOf x.2.2).map fun ev => (s.handleAt x.1, ev) := by
      unfold State.tickEvents
      cases s.slots[i].record with
      | none => rfl
      | some r => by_cases hb : r.base = b <;> simp [hb]
    rw [List.filterMap_cons, List.map_cons, List.filter_cons, hi, ← ih]
    cases s.slots[i].record with
    | none => rfl
    | some r => by_cases hb : r.base = b <;> simp [hb, List.filter_cons]

/-- R35: an event of a tick is that of a record on the base, at its slot. -/
theorem mem_tickEvents {b : Base} {i : SlotIx} {x : Handle × SourceEvent} (hx : x ∈ s.tickEvents b i) :
    x.1.slot = i ∧ ∃ r, s.record? x.1 = some r ∧ r.base = b := by
  unfold State.tickEvents at hx
  cases hr : s.slots[i].record with
  | none => rw [hr] at hx; cases hx
  | some r =>
    rw [hr] at hx
    by_cases hb : r.base = b
    · simp only [hb, if_true, List.mem_map] at hx
      obtain ⟨ev, _, rfl⟩ := hx
      exact ⟨rfl, r, record?_handleAt.trans hr, hb⟩
    · simp only [hb, if_false, List.not_mem_nil] at hx

/-- One member's share of a list without repetition. -/
theorem flatMap_ite_eq {α β : Type} [DecidableEq α] {l : List α} (hl : l.Nodup) {i : α} (hi : i ∈ l)
    (f : α → List β) : (l.flatMap fun j => if j = i then f j else []) = f i := by
  induction l with
  | nil => cases hi
  | cons j l ih =>
    obtain ⟨hj, hl⟩ := List.nodup_cons.1 hl
    rw [List.flatMap_cons]
    by_cases h : j = i
    · subst h
      rw [if_pos rfl, List.flatMap_eq_nil_iff.2 fun x hx => if_neg fun e : x = j => hj (e ▸ hx), List.append_nil]
    · rw [if_neg h, List.nil_append, ih hl ((List.mem_cons.1 hi).resolve_left fun e => h e.symm)]

/-- R82: the order of a tick's events keeps those of each record as the record raised them. -/
theorem tickOrder_filter (s : State) (b : Base) (i : SlotIx) :
    ((s.anyOrder (s.tickQueues b)).filter fun x => x.1.slot == i) = s.tickEvents b i := by
  have hapart : (s.tickQueues b).Pairwise fun q q' => ∀ x ∈ q, ∀ y ∈ q', x.1.slot ≠ y.1.slot := by
    rw [tickQueues_eq]
    refine (List.pairwise_map.2 ((List.nodup_finRange 32).imp fun hne x hx y hy e => hne ?_)).filter _
    rw [← (mem_tickEvents hx).1, e, (mem_tickEvents hy).1]
  have hone : ∀ q ∈ s.tickQueues b, ∀ x ∈ q, ∀ y ∈ q, x.1.slot = y.1.slot := by
    intro q hq x hx y hy
    rw [tickQueues_eq] at hq
    obtain ⟨j, _, rfl⟩ := List.mem_map.1 (List.mem_filter.1 hq).1
    rw [(mem_tickEvents hx).1, (mem_tickEvents hy).1]
  rw [anyOrder_filter, tickQueues_eq, List.flatten_filter_not_isEmpty, ← List.flatMap_def, List.filter_flatMap]
  · rw [← flatMap_ite_eq (List.nodup_finRange 32) (List.mem_finRange i) (s.tickEvents b)]
    refine congrArg (List.flatMap · _) (funext fun j => ?_)
    by_cases h : j = i
    · rw [if_pos h, List.filter_eq_self]
      exact fun x hx => by rw [(mem_tickEvents hx).1, h, beq_self_eq_true]
    · rw [if_neg h, List.filter_eq_nil_iff]
      exact fun x hx => by rw [(mem_tickEvents hx).1, beq_iff_eq]; exact h
  · intro m n hm hn x y hx hy hp
    rw [beq_iff_eq] at hp ⊢
    constructor
    · intro hy'
      by_contra hne
      rcases Nat.lt_or_gt_of_ne hne with h | h
      · exact List.pairwise_iff_getElem.1 hapart m n hm hn h x hx y hy (hp.trans hy'.symm)
      · exact List.pairwise_iff_getElem.1 hapart n m hn hm h y hy x hx (hy'.trans hp.symm)
    · rintro rfl
      rw [← hp]
      exact hone _ (List.getElem_mem hn) y hy x hx

/-- Settles O39: the order of the events keeps each record's own (`tickOrder_filter`), and they are of records on the
base (`mem_tickEvents`). -/
theorem tickReachesEveryRecordOnce : Obligations.TickReachesEveryRecordOnce := by
  unfold Obligations.TickReachesEveryRecordOnce
  intro s b hrun
  refine ⟨s.anyOrder (s.tickQueues b), fun i r hr hb => ?own, fun x hx => ?mem, ?state⟩
  case own =>
    rw [tickOrder_filter, State.tickEvents, hr]
    simp only [hb, if_true]
  case mem =>
    rw [(anyOrder_perm s _).mem_iff, tickQueues_eq, List.flatten_filter_not_isEmpty] at hx
    obtain ⟨q, hq, hx⟩ := List.mem_flatten.1 hx
    obtain ⟨i, _, rfl⟩ := List.mem_map.1 hq
    exact (mem_tickEvents hx).2
  case state =>
    refine congrArg Host.Outcome.next ((if_pos hrun).trans ?_)
    simp only [State.tickBase, State.takeAll, State.mapRecords, State.setBase, State.draw, TimeBase.ticked,
      settled] <;> rfl

end Sys2Proof.Machine
end

section
/-! PROOFS. Retirement (R15 to R17, R70): what freeing links leaves in the lists of their sources. -/

namespace Sys2Proof.Machine

variable {s t : State}

/-! ## Freeing links -/

/-- R70: every slot after the list of a source is replaced. -/
theorem setLinkList_slot (src : LinkSource) (l : List LinkIx) (j : SlotIx) :
    (s.setLinkList src l).slots[j] = { gen := s.slots[j].gen
                                       record := s.slots[j].record.map fun r =>
                                         if src = .record (s.handleAt j) then { r with outgoing := l } else r } := by
  have hsame (h : ∀ r, s.slots[j].record = some r → src ≠ .record (s.handleAt j)) :
      s.slots[j] = { gen := s.slots[j].gen
                     record := s.slots[j].record.map fun r =>
                       if src = .record (s.handleAt j) then { r with outgoing := l } else r } := by
    cases hr : s.slots[j].record with
    | none => rw [Option.map_none, ← hr]
    | some r => rw [Option.map_some, if_neg (h r hr), ← hr]
  cases src with
  | pin p => exact hsame fun _ _ e => by cases e
  | record h =>
    cases hr : s.record? h with
    | none =>
      have hs : s.setLinkList (.record h) l = s := by simp only [State.setLinkList, hr]
      rw [hs]
      refine hsame fun r hj e => ?_
      rw [LinkSource.record.inj e, record?_handleAt, hj] at hr
      cases hr
    | some r =>
      have hs : s.setLinkList (.record h) l = s.setRecord h.slot { r with outgoing := l } := by
        simp only [State.setLinkList, hr]
      rw [hs, setRecord_slots, put_get_fin]
      have hh := handleAt_of_record? hr
      split
      · next hj =>
        subst hj
        rw [(record?_eq_some.1 hr).2, Option.map_some, hh, if_pos rfl]
      · next hj => exact hsame fun _ _ e => hj (by rw [LinkSource.record.inj e]; rfl)

/-- R70: every pin after the list of a source is replaced. -/
theorem setLinkList_pin (src : LinkSource) (l : List LinkIx) (p : Pin) :
    (s.setLinkList src l).pins[p] = if src = .pin p then { s.pins[p] with links := l } else s.pins[p] := by
  cases src with
  | record h =>
    rw [if_neg (by simp)]
    unfold State.setLinkList
    dsimp only
    cases s.record? h <;> rfl
  | pin q =>
    rw [show s.setLinkList (.pin q) l = s.setPin q { s.pins[q] with links := l } from rfl, setPin_pins, put_get_fin]
    by_cases hp : p = q
    · subst hp
      rw [if_pos rfl, if_pos rfl]
    · rw [if_neg hp, if_neg fun e => hp (LinkSource.pin.inj e).symm]

/-- R16, R70: whether the link in an entry names the handle, so that it leaves the list of the source. -/
def State.frees (s : State) (h : Handle) (src : LinkSource) (k : LinkIx) : Bool :=
  (s.links[k]).any fun l => l.source == src && l.names h

/-- R16: what a visit of one entry of the pool does: nothing, as its link does not name the handle, or the freeing of
its link. -/
theorem freeIfNames_cases (s : State) (h : Handle) (i : LinkIx) :
    (s.freeIfNames h i = s ∧ ∀ src, s.frees h src i = false) ∨
      ∃ src₀, s.freeIfNames h i = (s.setLinkList src₀ ((s.linkList src₀).filter (· != i))).setLink i none ∧
        ∀ src, s.frees h src i = decide (src₀ = src) := by
  unfold State.freeIfNames State.frees
  cases hl : s.links[i] with
  | none => exact .inl ⟨rfl, fun _ => rfl⟩
  | some l =>
    by_cases hn : l.names h = true
    · refine .inr ⟨l.source, ?_, fun src => ?_⟩
      · simp only [hn, if_true, freeLink_of_some hl]
      · simp [hn, Bool.beq_eq_decide_eq]
    · exact .inl ⟨if_neg hn, fun src => by simp [hn]⟩

/-- R16: the links of a source that a visit of one entry leaves. -/
theorem filter_freed_one (h : Handle) (src : LinkSource) (i : LinkIx) (l : List LinkIx) :
    (l.filter fun k => !(k == i && s.frees h src k)) = if s.frees h src i then l.filter (· != i) else l := by
  split
  · next hf =>
    refine List.filter_congr fun k _ => ?_
    by_cases hk : k = i
    · subst hk
      simp [hf]
    · rw [beq_eq_false_iff_ne.2 hk, bne_iff_ne.2 hk]
      rfl
  · next hf =>
    refine List.filter_eq_self.2 fun k _ => ?_
    by_cases hk : k = i
    · subst hk
      simp [hf]
    · simp [hk]

/-- R16: the list of a slot's record after a visit of one entry of the pool. -/
theorem freeIfNames_slot (h : Handle) (i : LinkIx) (j : SlotIx) :
    (s.freeIfNames h i).slots[j] = { gen := s.slots[j].gen
                                     record := s.slots[j].record.map fun r =>
                                       { r with
                                         outgoing := r.outgoing.filter fun k =>
                                           !(k == i && s.frees h (.record (s.handleAt j)) k) } } := by
  simp only [filter_freed_one]
  rcases freeIfNames_cases s h i with ⟨e, hf⟩ | ⟨src₀, e, hf⟩
  · simp only [e, hf, Bool.false_eq_true, if_false, Option.map_id']
  · rw [e, setLink_slots, setLinkList_slot]
    congr 1
    cases hr : s.slots[j].record with
    | none => rfl
    | some r =>
      simp only [hf, decide_eq_true_eq, Option.map_some]
      split
      · next hsrc => simp only [hsrc, State.linkList, record?_handleAt, hr]
      · rfl

/-- R16: the list of a pin after a visit of one entry of the pool. -/
theorem freeIfNames_pin (h : Handle) (i : LinkIx) (p : Pin) :
    (s.freeIfNames h i).pins[p] = { s.pins[p] with
      links := s.pins[p].links.filter fun k => !(k == i && s.frees h (.pin p) k) } := by
  simp only [filter_freed_one]
  rcases freeIfNames_cases s h i with ⟨e, hf⟩ | ⟨src₀, e, hf⟩
  · simp only [e, hf, Bool.false_eq_true, if_false]
  · rw [e, setLink_pins, setLinkList_pin]
    simp only [hf, decide_eq_true_eq]
    split
    · next hsrc => simp only [hsrc, State.linkList]
    · rfl

/-- R16: the links that are still to be freed after a visit of one entry. -/
theorem freeIfNames_frees (h : Handle) (i : LinkIx) (src : LinkSource) (k : LinkIx) :
    (s.freeIfNames h i).frees h src k = (!(k == i) && s.frees h src k) := by
  unfold State.frees
  rw [freeIfNames_links]
  by_cases hk : k = i
  · subst hk
    cases hl : s.links[k] with
    | none => simp
    | some l => by_cases hn : l.names h = true <;> simp [hn]
  · simp [hk]

/-- R16: the lists, after the visits of some entries of the pool, are those without the links freed. -/
def State.without (s : State) (visited : List LinkIx) (h : Handle) (src : LinkSource) (l : List LinkIx) :
    List LinkIx :=
  l.filter fun k => !(visited.contains k && s.frees h src k)

/-- R16: a visit of one entry more. -/
theorem without_cons (i : LinkIx) (visited : List LinkIx) (h : Handle) (src : LinkSource) (l : List LinkIx) :
    (s.freeIfNames h i).without visited h src (l.filter fun k => !(k == i && s.frees h src k)) =
      s.without (i :: visited) h src l := by
  simp only [State.without, freeIfNames_frees, List.filter_filter, List.contains_cons]
  refine List.filter_congr fun k _ => ?_
  cases k == i <;> cases s.frees h src k <;> simp

/-- R16, R70: the record table after the visits of some entries of the pool. -/
theorem foldl_freeIfNames_slot (visited : List LinkIx) (s : State) (h : Handle) (j : SlotIx) :
    (visited.foldl (fun t i => t.freeIfNames h i) s).slots[j] =
      { gen := s.slots[j].gen
        record := s.slots[j].record.map fun r =>
          { r with outgoing := s.without visited h (.record (s.handleAt j)) r.outgoing } } := by
  induction visited generalizing s with
  | nil => simp [State.without]
  | cons i visited ih =>
    have hhandle : (s.freeIfNames h i).handleAt j = s.handleAt j := by
      rw [State.handleAt, freeIfNames_slot, State.handleAt]
    rw [List.foldl_cons, ih, hhandle, freeIfNames_slot, Option.map_map]
    simp only [Function.comp_def, without_cons]

/-- R16, R70: the pin table after the visits of some entries of the pool. -/
theorem foldl_freeIfNames_pin (visited : List LinkIx) (s : State) (h : Handle) (p : Pin) :
    (visited.foldl (fun t i => t.freeIfNames h i) s).pins[p] =
      { s.pins[p] with links := s.without visited h (.pin p) s.pins[p].links } := by
  induction visited generalizing s with
  | nil => simp [State.without]
  | cons i visited ih => rw [List.foldl_cons, ih, freeIfNames_pin, without_cons]

/-- R16: the pool after the visits of some entries. -/
theorem foldl_freeIfNames_link (visited : List LinkIx) (s : State) (h : Handle) (k : LinkIx) :
    (visited.foldl (fun t i => t.freeIfNames h i) s).links[k] =
      if k ∈ visited ∧ (s.links[k]).any (·.names h) = true then none else s.links[k] := by
  induction visited generalizing s with
  | nil => simp
  | cons i visited ih =>
    rw [List.foldl_cons, ih, freeIfNames_links]
    by_cases hk : k = i
    · subst hk
      generalize s.links[k] = x
      by_cases hn : x.any (·.names h) = true <;> simp [hn]
    · simp [hk]

/-- R16: the visits of any entries change the record table, the pool and the pin table alone. -/
theorem foldl_freeIfNames_frame (visited : List LinkIx) (s : State) (h : Handle) :
    ∃ slots links pins, visited.foldl (fun t i => t.freeIfNames h i) s =
      { s with slots := slots, links := links, pins := pins } := by
  induction visited generalizing s with
  | nil => exact ⟨_, _, _, rfl⟩
  | cons i visited ih =>
    obtain ⟨slots, links, pins, e⟩ := ih (s.freeIfNames h i)
    refine ⟨slots, links, pins, e.trans ?_⟩
    rw [freeIfNames_frame]

/-- R17: a retirement made by one visit. -/
theorem retireSlot_eq {i : SlotIx} {r : Record} (hr : s.slots[i].record = some r) :
    s.retireSlot i = (List.finRange 64).foldl (fun t k => t.freeIfNames (s.handleAt i) k) (s.emptySlot i) := by
  unfold State.retireSlot
  rw [hr]
  rfl

/-- R15: the record table after a slot is emptied. -/
theorem emptySlot_slot {i : SlotIx} {r : Record} (hr : s.slots[i].record = some r) (j : SlotIx) :
    (s.emptySlot i).slots[j] = if j = i then { gen := s.slots[i].gen + 1, record := none } else s.slots[j] := by
  rw [emptySlot_eq s hr, put_get_fin]

/-- R15: the pin table after a slot is emptied. -/
theorem emptySlot_pin {i : SlotIx} {r : Record} (hr : s.slots[i].record = some r) (p : Pin) :
    (s.emptySlot i).pins[p] =
      { s.pins[p] with claim := if r.pin = some p then none else s.pins[p].claim } := by
  rw [emptySlot_eq s hr]
  dsimp only
  cases hp : r.pin with
  | none => simp
  | some q =>
    dsimp only
    rw [put_get_fin]
    by_cases h : p = q
    · subst h
      simp
    · rw [if_neg h, if_neg fun e => h (Option.some.inj e).symm]

/-- R15: the pool is not changed when a slot is emptied. -/
theorem emptySlot_links {i : SlotIx} {r : Record} (hr : s.slots[i].record = some r) :
    (s.emptySlot i).links = s.links := by
  rw [emptySlot_eq s hr]

/-- R17: a retirement changes the record table, the pool and the pin table alone. -/
theorem retireSlot_frame {i : SlotIx} {r : Record} (hr : s.slots[i].record = some r) :
    s.retireSlot i = { s with
      slots := (s.retireSlot i).slots, links := (s.retireSlot i).links, pins := (s.retireSlot i).pins } := by
  obtain ⟨slots, links, pins, e⟩ := foldl_freeIfNames_frame (List.finRange 64) (s.emptySlot i) (s.handleAt i)
  rw [retireSlot_eq hr, e, emptySlot_eq s hr]

/-- R17: the record table after a retirement. -/
theorem retireSlot_slot {i : SlotIx} {r : Record} (hr : s.slots[i].record = some r) (j : SlotIx) :
    (s.retireSlot i).slots[j] =
      { gen := (s.emptySlot i).slots[j].gen
        record := (s.emptySlot i).slots[j].record.map fun x =>
          { x with
            outgoing := (s.emptySlot i).without (List.finRange 64) (s.handleAt i) (.record ((s.emptySlot i).handleAt j))
              x.outgoing } } := by
  rw [retireSlot_eq hr, foldl_freeIfNames_slot]

/-- R17: the pin table after a retirement. -/
theorem retireSlot_pin {i : SlotIx} {r : Record} (hr : s.slots[i].record = some r) (p : Pin) :
    (s.retireSlot i).pins[p] =
      { (s.emptySlot i).pins[p] with
        links :=
          (s.emptySlot i).without (List.finRange 64) (s.handleAt i) (.pin p) (s.emptySlot i).pins[p].links } := by
  rw [retireSlot_eq hr, foldl_freeIfNames_pin]

/-- R17: an entry of the pool after a retirement. -/
theorem retireSlot_link {i : SlotIx} {r : Record} (hr : s.slots[i].record = some r) (k : LinkIx) :
    (s.retireSlot i).links[k] = if (s.links[k]).any (·.names (s.handleAt i)) = true then none else s.links[k] := by
  rw [retireSlot_eq hr, foldl_freeIfNames_link, emptySlot_links hr]
  simp only [List.mem_finRange, true_and]

/-- R16: a link names a handle as its source or its target. -/
theorem names_iff {l : Link} {h : Handle} : l.names h = true ↔ l.source = .record h ∨ l.target = h := by
  simp [Link.names]

/-- Settles O28: the slot is emptied, and the visits of the 64 entries free every link that names its handle. -/
theorem retirementLeavesNoTrace : Obligations.RetirementLeavesNoTrace := by
  unfold Obligations.RetirementLeavesNoTrace
  intro s i r hr t h freed
  have hfreed (src : LinkSource) (l : List LinkIx) :
      (s.emptySlot i).without (List.finRange 64) (s.handleAt i) src l = l.filter fun k => !freed src k := by
    refine List.filter_congr fun k _ => ?_
    have he : freed src k = (s.links[k]).any fun l => l.source == src && l.names h := by
      dsimp only [freed]
      cases s.links[k] with
      | none => rfl
      | some l => simp [Link.names, Bool.decide_and, Bool.decide_or, Bool.beq_eq_decide_eq]
    rw [he, State.frees, emptySlot_links hr, List.contains_iff_mem.2 (List.mem_finRange k)]
    rfl
  have hslot (j : SlotIx) : t.slots[j] = _ := retireSlot_slot hr j
  have hpin (p : Pin) : t.pins[p] = _ := retireSlot_pin hr p
  have hlink (k : LinkIx) : t.links[k] = _ := retireSlot_link hr k
  refine ⟨?slot, fun p => ?pin, fun k l hl => ?gone, fun k l hl hsrc htgt => ?kept, fun j hj => ?others,
    retireSlot_frame hr⟩
  case slot => rw [hslot, emptySlot_slot hr, if_pos rfl, Option.map_none]
  case pin => rw [hpin, emptySlot_pin hr, hfreed]
  case gone =>
    rw [hlink] at hl
    split at hl
    · cases hl
    · next hn => rwa [hl, Option.any_some, names_iff, not_or] at hn
  case kept =>
    rw [hlink, hl]
    exact if_neg fun hn => (names_iff.1 hn).elim hsrc htgt
  case others =>
    have hhandle : (s.emptySlot i).handleAt j = s.handleAt j := by
      rw [State.handleAt, emptySlot_slot hr, if_neg hj, State.handleAt]
    rw [hslot, hhandle, emptySlot_slot hr, if_neg hj]
    simp only [hfreed]
    rfl

end Sys2Proof.Machine
end

section
/-! PROOFS. The core clock (R27, R110, R115, R134): what one core-clock period brings. -/

namespace Sys2Proof.Machine

variable {s t : State}

/-! ## The events that come due -/

/-- R27: the ticks that a core-clock period brings. -/
theorem mem_due_tick {b : Base} : Instr.tick b ∈ s.due ↔ s.bases[b].tickDue = true := by
  have hline : ∀ g line, lineChange g line ≠ .tick b := by
    intro g line
    cases line <;> simp [lineChange]
  simp [State.due, hline]

/-- R134, R135: the lease expiries that a core-clock period brings. -/
theorem mem_due_leaseExpiry {a : Agent} : Instr.leaseExpiry a ∈ s.due ↔ s.expiryDue a = true := by
  have hline : ∀ g line, lineChange g line ≠ .leaseExpiry a := by
    intro g line
    cases line <;> simp [lineChange]
  simp [State.due, hline]

/-- R110: the edges that a core-clock period brings. -/
theorem mem_due_edge {p : Pin} {d : EdgeDir} :
    Instr.edge p d ∈ s.due ↔ s.edgeDue p = true ∧ d = edgeFrom s.pins[p].filtered := by
  have hline : ∀ g line, lineChange g line ≠ .edge p d := by
    intro g line
    cases line <;> simp [lineChange]
  simp only [State.due, List.mem_append, List.mem_map, List.mem_filter, List.mem_finRange, true_and, hline, and_false,
    exists_false, or_false, reduceCtorEq, Instr.edge.injEq]
  constructor
  · rintro ⟨q, hq, rfl, hd⟩
    exact ⟨hq, hd.symm⟩
  · rintro ⟨hq, hd⟩
    exact ⟨p, hq, rfl, hd.symm⟩

/-- The events that a core-clock period brings are each due once. -/
theorem due_nodup : s.due.Nodup := by
  have hline : (([Group.a, .b].filter fun g => s.lineDue g).map fun g => lineChange g (s.group g).line).Nodup := by
    refine (List.Nodup.filter _ (by decide)).map_on fun g _ k _ h => ?_
    revert h
    cases g <;> cases k <;> cases (s.group .a).line <;> cases (s.group .b).line <;> simp [lineChange]
  have hedge : (((List.finRange 24).filter fun p => s.edgeDue p).map fun p =>
      Instr.edge p (edgeFrom s.pins[p].filtered)).Nodup :=
    ((List.nodup_finRange 24).filter _).map_on fun _ _ _ _ h => (Instr.edge.inj h).1
  have htick : (((List.finRange 4).filter fun b => s.bases[b].tickDue).map Instr.tick).Nodup :=
    ((List.nodup_finRange 4).filter _).map_on fun _ _ _ _ h => Instr.tick.inj h
  have hlease : (((List.finRange 4).filter fun a => s.expiryDue a).map Instr.leaseExpiry).Nodup :=
    ((List.nodup_finRange 4).filter _).map_on fun _ _ _ _ h => Instr.leaseExpiry.inj h
  refine List.Nodup.append (List.Nodup.append (List.Nodup.append hedge hline ?_) htick ?_) hlease ?_
  all_goals
    intro c hc hc'
    simp only [List.mem_append, List.mem_map] at hc hc'
  · obtain ⟨p, _, rfl⟩ := hc
    obtain ⟨g, _, h⟩ := hc'
    revert h
    cases (s.group g).line <;> simp [lineChange]
  · obtain ⟨b, _, rfl⟩ := hc'
    obtain ⟨_, _, h⟩ | ⟨g, _, h⟩ := hc
    · cases h
    · revert h
      cases (s.group g).line <;> simp [lineChange]
  · obtain ⟨a, _, rfl⟩ := hc'
    obtain (⟨_, _, h⟩ | ⟨g, _, h⟩) | ⟨_, _, h⟩ := hc
    · cases h
    · revert h
      cases (s.group g).line <;> simp [lineChange]
    · cases h

/-- R110: a pin whose last sample was its filtered level has no edge due. -/
theorem edgeDue_of_not_narrow {p : Pin} (h : s.pins[p].narrow = false) : s.edgeDue p = false := by
  simp only [State.edgeDue, h, Bool.false_and]

/-- R110: a difference from the filtered level that holds at a second sample is an edge. -/
theorem edgeDue_of_holds {p : Pin} (h : s.pins[p].narrow = true) (hl : s.levelAt p ≠ s.pins[p].filtered) :
    s.edgeDue p = true := by
  simp only [State.edgeDue, h, bne_iff_ne.2 hl, Bool.true_and, Bool.true_or]

/-- R115: a line whose last sample was its line level has no event due. -/
theorem lineDue_of_not_narrow {g : Group} (h : (s.group g).narrow = false) : s.lineDue g = false := by
  simp [State.lineDue, h]

/-- R115: a difference from the line level that holds at a second sample is an event. -/
theorem lineDue_of_holds {g : Group} (h : (s.group g).narrow = true) (hl : s.inhibitAt g ≠ (s.group g).line) :
    s.lineDue g = true := by
  simp [State.lineDue, h, hl]

/-! ## The counts -/

/-- R27: a count within its interval. -/
theorem counted_within {b : TimeBase} {i : Interval} (hr : b.running = true) (hi : b.interval = some i)
    (h : i.count + 1 < i.inForce) : b.tickDue = false ∧
      b.counted = { b with interval := some { count := i.count + 1, inForce := i.inForce } } := by
  have ht : b.tickDue = false := by
    simp only [TimeBase.tickDue, hr, hi]
    exact decide_eq_false (Nat.not_le.2 h)
  exact ⟨ht, by simp only [TimeBase.counted, hi, ht, Bool.false_eq_true, if_false]⟩

/-- R27: a count that ends its interval. -/
theorem counted_end {b : TimeBase} {i : Interval} (hr : b.running = true) (hi : b.interval = some i)
    (h : i.inForce ≤ i.count + 1) : b.tickDue = true ∧
      b.counted = { b with interval := some { count := 0, inForce := b.divisor } } := by
  have ht : b.tickDue = true := by
    simp only [TimeBase.tickDue, hr, hi]
    exact decide_eq_true h
  exact ⟨ht, by simp only [TimeBase.counted, hi, ht, if_true]⟩

/-- R27: a base without an interval counts nothing. -/
theorem counted_none {b : TimeBase} (hi : b.interval = none) : b.tickDue = false ∧ b.counted = b := by
  refine ⟨?_, by simp only [TimeBase.counted, hi]⟩
  cases hr : b.running <;> simp [TimeBase.tickDue, hr, hi]

/-- Settles O2: the clock (`clock_cases`) samples and counts each block, and what comes due waits in the queue once
(`due_nodup`). -/
theorem emptyQueueIsOneClockPeriod : Obligations.EmptyQueueIsOneClockPeriod := by
  unfold Obligations.EmptyQueueIsOneClockPeriod
  intro s hq hhigh
  obtain ⟨h, _⟩ | ⟨_, events, hperm, he⟩ := clock_cases s
  · exact absurd hhigh h
  refine ⟨s.clock, ?_, ?_⟩
  · simp only [step, hq]
  have hmem (c : Instr) : c ∈ s.clock.pending ↔ c ∈ s.due := by rw [he]; exact hperm.mem_iff
  have honce {c : Instr} (h : c ∈ s.due) : s.clock.pending.count c = 1 := by
    rw [he]
    exact (hperm.count_eq c).trans (List.count_eq_one_of_mem due_nodup h)
  have hnever {c : Instr} (h : c ∉ s.due) : s.clock.pending.count c = 0 :=
    List.count_eq_zero.2 fun hc => h ((hmem c).1 hc)
  have hbase (b : Base) : s.clock.bases[b] = s.bases[b].counted := by rw [he]; exact tab_get_fin _ _
  have hsession (a : Agent) : s.clock.sessions[a] = s.timed a := by rw [he]; exact tab_get_fin _ _
  have hpin (p : Pin) : s.clock.pins[p] = s.sampled p := by rw [he]; exact tab_get_fin _ _
  have hgroup (g : Group) : s.clock.group g = s.sampledGroup g := by rw [he]; cases g <;> rfl
  refine ⟨fun b i hrun hi => ⟨fun h => ?within, fun h => ?tick⟩, fun b hi => ?still,
    fun a => ⟨fun hr => ?timer, fun hr => ?stopped⟩, fun p => ⟨hpin p, fun hn hl => ?edge, fun hn d => ?noEdge⟩,
    fun g => ⟨hgroup g, fun hn hl => ?line, fun hn => ?noLine, ?otherLine⟩, ?frame⟩
  case within =>
    obtain ⟨ht, hc⟩ := counted_within hrun hi h
    rw [hbase, hmem, mem_due_tick, ht]
    exact ⟨hc, Bool.false_ne_true⟩
  case tick =>
    obtain ⟨ht, hc⟩ := counted_end hrun hi h
    rw [hbase]
    exact ⟨hc, honce (mem_due_tick.2 ht)⟩
  case still =>
    obtain ⟨ht, hc⟩ := counted_none hi
    rw [hbase, hmem, mem_due_tick, ht]
    exact ⟨hc, Bool.false_ne_true⟩
  case timer =>
    rw [hsession, State.timed, if_pos hr]
    refine ⟨rfl, ?_⟩
    split
    · next h => exact honce (mem_due_leaseExpiry.2 (by simp only [State.expiryDue, hr, h, decide_true, Bool.and_self]))
    · next h =>
      refine hnever (mem_due_leaseExpiry.not.2 ?_)
      simp only [State.expiryDue, hr, h, decide_false, Bool.and_false, Bool.false_eq_true, not_false_eq_true]
  case stopped =>
    rw [hsession, State.timed, hr, hmem, mem_due_leaseExpiry, State.expiryDue, hr]
    exact ⟨rfl, Bool.false_ne_true⟩
  case edge => exact honce (mem_due_edge.2 ⟨edgeDue_of_holds hn hl, rfl⟩)
  case noEdge =>
    rw [hmem, mem_due_edge, edgeDue_of_not_narrow hn]
    exact fun h => Bool.false_ne_true h.1
  case line =>
    have h := (mem_due_lineChange s g (!(s.group g).line)).2 ⟨lineDue_of_holds hn hl, by simp⟩
    have hc := honce h
    cases hline : (s.group g).line <;> simpa [hline] using hc
  case noLine =>
    have h (asserted : Bool) := (mem_due_lineChange s g asserted).not.2 fun h =>
      Bool.false_ne_true ((lineDue_of_not_narrow hn).symm.trans h.1)
    exact ⟨fun hc => h true ((hmem _).1 hc), fun hc => h false ((hmem _).1 hc)⟩
  case otherLine =>
    rw [hmem]
    exact fun h => (Bool.eq_not_self _).mp ((mem_due_lineChange s g _).1 h).2
  case frame => rw [he]; exact ⟨rfl, rfl, rfl, rfl, rfl, rfl, rfl, rfl, rfl⟩

end Sys2Proof.Machine
end

section
/-! PROOFS. Long operations that retire records (R15 to R17, R132 to R137, R162, R164), and ADOPT (R141). -/

namespace Sys2Proof.Machine

variable {s t : State} {a g : Agent} {c : ReqCode} {q : Byte} {p : List Byte} {f : Frame}
  {body : Agent → List Byte → State → Except Status Reply}

/-! ## Long operations -/

/-- R162: a request whose body begins a long operation. -/
theorem carryOut_begins (h : s.carries a c q p) (hl : c.lengthOk p = true) (hb : body a p s = .ok (.begun t)) :
    (.next (s.carryOut c body) : Host.Outcome State Fault Refusal) = .next t := by
  rw [carryOut_carries h hl, hb, conclude_begun]

/-- R152: the operation in progress while a request is carried out. -/
theorem carries_op (h : s.carries a c q p) :
    s.engine.op = some { agent := a, sweep := false, work := .chosen } :=
  (serving_iff.1 h.1).1

/-- R162: the operation in progress is that of the visit while the engine is left as it is. -/
theorem working_op {w : Work} (h : s.working = some (a, f, w)) (ht : t.engine = s.engine) :
    t.engine.op = some { agent := a, sweep := false, work := w } := by
  rw [ht]
  exact (working_iff.1 h).1

/-- R162: every slot but the last has one after it. -/
theorem nextSlot_succ {i : SlotIx} (hi : i.val < 31) : nextSlot i = some ⟨i.val + 1, by omega⟩ :=
  dif_pos (by omega)

/-- R162: every entry but the last has one after it. -/
theorem nextEntry_succ {i : LinkIx} (hi : i.val < 63) : nextEntry i = some ⟨i.val + 1, by omega⟩ :=
  dif_pos (by omega)

/-- R17: a retirement leaves the engine and the ports. -/
theorem retireSlot_engine (s : State) (i : SlotIx) : (s.retireSlot i).engine = s.engine := by
  cases hi : s.slots[i].record with
  | none => simp only [State.retireSlot, hi]
  | some r => rw [retireSlot_frame hi]

/-- R70: the freeing of a link leaves the engine. -/
theorem freeIfNames_engine (s : State) (h : Handle) (i : LinkIx) : (s.freeIfNames h i).engine = s.engine := by
  rw [freeIfNames_frame]

/-! ## RETIRE -/

/-- R16: a visit of an entry whose link names the handle. -/
theorem freeIfNames_of_names {h : Handle} {i : LinkIx}
    (hl : ∃ l, s.links[i] = some l ∧ (l.source = .record h ∨ l.target = h)) : s.freeIfNames h i = s.freeLink i := by
  obtain ⟨l, hl, hn⟩ := hl
  simp only [State.freeIfNames, hl, names_iff.2 hn, if_true]

/-- R16: a visit of an entry whose link does not name the handle. -/
theorem freeIfNames_of_not_names {h : Handle} {i : LinkIx}
    (hl : ∀ l, s.links[i] = some l → l.source ≠ .record h ∧ l.target ≠ h) : s.freeIfNames h i = s := by
  unfold State.freeIfNames
  cases hs : s.links[i] with
  | none => rfl
  | some l => exact if_neg (names_iff.not.2 (not_or.2 (hl l hs)))

/-- R15: RETIRE of a record that the requester may change empties its slot and begins at entry 0. -/
theorem retireBody_eq {h : Handle} {r : Record} (hr : s.record? h = some r) (ho : a = 0 ∨ r.owner = a) :
    retireBody a (wordBytes h.value) s = .ok (.begun ((s.emptySlot h.slot).setWork (.retiring h 0))) := by
  simp [retireBody, handleField_eq, ownRecord_ok hr ho]

/-- Settles O27: RETIRE begins its visits (`retireBody_eq`), and each visit frees its entry if the link there names the
handle. -/
theorem retireEmptiesSlotAndFreesLinks : Obligations.RetireEmptiesSlotAndFreesLinks := by
  unfold Obligations.RetireEmptiesSlotAndFreesLinks
  intro s a q
  refine ⟨fun h r hr ho hc => ?begin, fun f h i t hw ht => ?visit⟩
  case begin =>
    obtain ⟨hgen, hs⟩ := record?_eq_some.1 hr
    have hop := carries_op hc
    refine (carryOut_begins hc rfl (retireBody_eq hr ho)).trans (congrArg Host.Outcome.next ?_)
    have he : (s.emptySlot h.slot).engine.op = s.engine.op := by rw [emptySlot_eq s hs]
    rw [setWork_of_op (he.trans hop), emptySlot_eq s hs, hgen]
    rfl
  case visit =>
    have hfree : s.freeIfNames h i = t := by
      obtain ⟨hl, rfl⟩ | ⟨hl, rfl⟩ := ht
      · exact freeIfNames_of_names hl
      · exact freeIfNames_of_not_names hl
    have hop := working_op hw (hfree ▸ freeIfNames_engine s h i)
    refine ⟨fun hi => congrArg Host.Outcome.next ?_, fun hi => congrArg Host.Outcome.next ?_⟩
    · rw [hw]
      dsimp only
      rw [nextEntry_succ hi, hfree]
      exact setWork_of_op hop
    · subst hi
      rw [hw, ← hfree]
      rfl

/-! ## Visits that retire an agent's records -/

/-- R132, R133: a visit retires the slot's record if it is the agent's, and counts it. -/
theorem retireOwned_eq {i : SlotIx} {n m : Nat}
    (h : (∃ r, s.slots[i].record = some r ∧ r.owner = g) ∧ t = s.retireSlot i ∧ m = n + 1 ∨
      (∀ r, s.slots[i].record = some r → r.owner ≠ g) ∧ t = s ∧ m = n) :
    s.retireOwned g i = t ∧ n + (s.holdsRecordOf g i).toNat = m := by
  unfold State.retireOwned State.holdsRecordOf
  obtain ⟨⟨r, hr, ho⟩, rfl, rfl⟩ | ⟨hn, rfl, rfl⟩ := h
  · have hown : (s.slots[i].record.any fun r => r.owner == g) = true := by rw [hr, ← ho]; exact beq_self_eq_true _
    rw [hown]
    exact ⟨rfl, rfl⟩
  · have hown : (t.slots[i].record.any fun r => r.owner == g) = false := by
      cases hr : t.slots[i].record with
      | none => rfl
      | some r => exact beq_eq_false_iff_ne.2 (hn r hr)
    rw [hown]
    exact ⟨rfl, rfl⟩

/-- R132, R133: a visit leaves the engine. -/
theorem retireOwned_engine (s : State) (g : Agent) (i : SlotIx) : (s.retireOwned g i).engine = s.engine := by
  unfold State.retireOwned
  split
  · exact retireSlot_engine s i
  · rfl

/-- Settles O19: CLOSE begins at slot 0, and each visit is that of `retireOwned_eq`. -/
theorem closeSessionRetiresAndCloses : Obligations.CloseSessionRetiresAndCloses := by
  unfold Obligations.CloseSessionRetiresAndCloses
  intro s a q
  refine ⟨fun hc => ?begin, fun f i n hw t m h => ?visit⟩
  case begin =>
    exact (carryOut_begins hc rfl rfl).trans (congrArg Host.Outcome.next (setWork_of_op (carries_op hc)))
  case visit =>
    obtain ⟨ht, hm⟩ := retireOwned_eq h
    have hop := working_op hw (ht ▸ retireOwned_engine s _ i)
    refine ⟨fun hi => congrArg Host.Outcome.next ?_, fun hi => congrArg Host.Outcome.next ?_⟩
    · rw [hw]
      dsimp only
      rw [nextSlot_succ hi, ht, hm]
      exact setWork_of_op hop
    · subst hi
      rw [hw, ← ht, ← hm]
      rfl

/-! ## FORCE_CLOSE -/

/-- R178: an agent field above 3 names no agent. -/
theorem agentOfByte_none {x : Byte} (h : 3 < x.toNat) : agentOfByte x = none :=
  dif_neg (by omega)

/-- R133: FORCE_CLOSE of an agent other than the supervisor. -/
theorem forceCloseBody_eq (hg : g ≠ 0) :
    forceCloseBody a [toByte g.val] s =
      .ok (.begun (((s.endLease g).discard g .closed).setWork
        (.forceClosing g s.sessions[g].state s.ports[g].request.isQueued
          (s.ports[g].request == .sweepQueued) 0 0))) := by
  simp [forceCloseBody, require_bind, hg]

/-- R133: FORCE_CLOSE of the supervisor, or of no agent. -/
theorem forceCloseBody_badValue {x : Byte} (hx : x = 0 ∨ 3 < x.toNat) :
    forceCloseBody a [x] s = .error .badValue := by
  obtain rfl | hx := hx
  · rfl
  · simp [forceCloseBody, agentOfByte_none hx]

/-- R133 step 2, R164 step 1: a discarded request is answered with the status. -/
theorem discard_queued {d : Frame} {st : Status} (h : s.ports[g].request = .queued d) :
    s.discard g st = s.setPort g { s.ports[g] with
      request := .empty
      response := some { seq := d.seq, code := d.code, status := st, data := [] } } := by
  simp only [State.discard, h]
  rfl

/-- R133 step 2, R164 step 1: a discarded sweep is not answered. -/
theorem discard_sweepQueued {st : Status} (h : s.ports[g].request = .sweepQueued) :
    s.discard g st = s.setPort g { s.ports[g] with request := .empty } := by
  simp only [State.discard, h]

/-- R133 step 2, R164 step 1: nothing is discarded from an EMPTY slot. -/
theorem discard_empty {st : Status} (h : s.ports[g].request = .empty) : s.discard g st = s := by
  simp only [State.discard, h]

/-- Settles O20: FORCE_CLOSE discards by what the request slot holds, and its visits are those of `retireOwned_eq`. -/
theorem forceCloseDiscardsRetiresAndCloses : Obligations.ForceCloseDiscardsRetiresAndCloses := by
  unfold Obligations.ForceCloseDiscardsRetiresAndCloses
  intro s g q
  refine ⟨fun x hx hc => carryOut_refuses hc rfl (forceCloseBody_badValue hx), fun hg hc => ?begin,
    fun a f prev request sweep i n hw t m h => ?visit⟩
  case begin =>
    intro u begins
    have hop : u.engine.op = some { agent := 0, sweep := false, work := .chosen } := carries_op (s := s) hc
    have hexec : exec .forceClose s = _ := carryOut_begins hc rfl (forceCloseBody_eq hg)
    have hu : s.endLease g = u := rfl
    refine ⟨fun d hd => ?_, fun hd => ?_, fun hd => ?_⟩ <;> rw [hexec, hu, hd]
    · rw [discard_queued (s := u) hd]
      exact congrArg Host.Outcome.next (setWork_of_op hop)
    · rw [discard_sweepQueued (s := u) hd]
      exact congrArg Host.Outcome.next (setWork_of_op hop)
    · rw [discard_empty (s := u) hd]
      exact congrArg Host.Outcome.next (setWork_of_op hop)
  case visit =>
    obtain ⟨ht, hm⟩ := retireOwned_eq h
    have hop := working_op hw (ht ▸ retireOwned_engine s _ i)
    refine ⟨fun hi => congrArg Host.Outcome.next ?_, fun hi => congrArg Host.Outcome.next ?_⟩
    · rw [hw]
      dsimp only
      rw [nextSlot_succ hi, ht, hm]
      exact setWork_of_op hop
    · subst hi
      rw [hw, ← ht, ← hm]
      cases prev <;> rfl

end Sys2Proof.Machine
end

section
/-! PROOFS. RESTART (R164), lapses (R135 to R137) and ADOPT (R141). -/

namespace Sys2Proof.Machine

variable {s t : State} {a g : Agent} {c : ReqCode} {q : Byte} {p : List Byte} {f : Frame}

/-! ## RESTART -/

/-- R133 step 2, R164 step 1: a port after its request slot is emptied, a discarded request answered with the
status. -/
def Port.discarded (x : Port) (st : Status) : Port :=
  match x.request with
  | .queued f => { x with request := .empty, response := some (f.refusal st) }
  | .sweepQueued => { x with request := .empty }
  | _ => x

/-- R133 step 2, R164 step 1: what a discard leaves at every port. -/
theorem discard_port (st : Status) (b : Agent) :
    (s.discard a st).ports[b] = if b = a then s.ports[a].discarded st else s.ports[b] := by
  have hsame : s.ports[b] = if b = a then s.ports[a] else s.ports[b] := by
    split
    · next h => rw [h]
    · rfl
  cases hq : s.ports[a].request <;> simp only [State.discard, Port.discarded, hq]
  · exact hsame
  · exact put_get_fin _ _ _ _
  · exact hsame
  · exact put_get_fin _ _ _ _
  · exact hsame

/-- R164 step 1: RESTART for some agents changes the sessions and the ports alone. -/
theorem foldl_restartAgent_frame (l : List Agent) (s : State) :
    ∃ sessions ports, l.foldl State.restartAgent s = { s with sessions := sessions, ports := ports } := by
  induction l generalizing s with
  | nil => exact ⟨_, _, rfl⟩
  | cons a l ih =>
    obtain ⟨sessions, ports, e⟩ := ih (s.restartAgent a)
    refine ⟨sessions, ports, e.trans ?_⟩
    rw [State.restartAgent, discard_frame]
    rfl

/-- R164 step 1: the sessions after RESTART for some agents. -/
theorem foldl_restartAgent_session {l : List Agent} (s : State) (b : Agent) :
    (l.foldl State.restartAgent s).sessions[b] =
      if b ∈ l then { s.sessions[b] with lease := 0, timer := 0 } else s.sessions[b] := by
  induction l generalizing s with
  | nil => rfl
  | cons a l ih =>
    have hone : (s.restartAgent a).sessions[b] =
        if b = a then { s.sessions[b] with lease := 0, timer := 0 } else s.sessions[b] := by
      rw [State.restartAgent, discard_frame]
      refine (put_get_fin _ _ _ _).trans ?_
      split
      · next h => rw [h]
      · rfl
    rw [List.foldl_cons, ih, hone]
    by_cases h : b = a <;> by_cases hl : b ∈ l <;> simp [h, hl]

/-- R164 step 1: the ports after RESTART for some agents. -/
theorem foldl_restartAgent_port {l : List Agent} (hl : l.Nodup) (s : State) (b : Agent) :
    (l.foldl State.restartAgent s).ports[b] =
      if b ∈ l then s.ports[b].discarded .restarted else s.ports[b] := by
  induction l generalizing s with
  | nil => rfl
  | cons a l ih =>
    obtain ⟨ha, hl⟩ := List.nodup_cons.1 hl
    have hone : (s.restartAgent a).ports[b] = if b = a then s.ports[a].discarded .restarted else s.ports[b] :=
      discard_port .restarted b
    rw [List.foldl_cons, ih hl, hone]
    by_cases h : b = a
    · subst h
      simp [ha]
    · simp [h]

/-- R164 step 5: the agents whose requests a RESTART discards. -/
theorem queuedAgents_bit (s : State) (b : Agent) :
    s.queuedAgents.getLsbD b.val = (decide (b ≠ 0) && s.ports[b].request.isQueued) := by
  have hbit : ∀ a b : Agent, (1#4 <<< a.val).getLsbD b.val = decide (b = a) := by decide
  have hfold : ∀ (l : List Agent) (x : BitVec 4), (l.foldl
      (fun x a => match s.ports[a].request with | .queued _ => x ||| (1#4 <<< a.val) | _ => x) x).getLsbD b.val =
        (x.getLsbD b.val || (decide (b ∈ l) && s.ports[b].request.isQueued)) := by
    intro l
    induction l with
    | nil => simp
    | cons a l ih =>
      intro x
      rw [List.foldl_cons, ih]
      have hhead : (match s.ports[a].request with | .queued _ => x ||| (1#4 <<< a.val) | _ => x).getLsbD b.val =
          (x.getLsbD b.val || (decide (b = a) && s.ports[a].request.isQueued)) := by
        cases s.ports[a].request <;> simp only [RequestSlot.isQueued, BitVec.getLsbD_or, hbit] <;> simp
      rw [hhead]
      by_cases hb : b = a
      · subst hb
        cases s.ports[b].request.isQueued <;> simp
      · simp [hb]
  have hothers : ∀ b : Agent, decide (b ∈ otherAgents) = decide (b ≠ 0) := by decide
  refine (hfold otherAgents 0).trans ?_
  rw [hothers]
  simp

/-- R164: the agents but the supervisor. -/
theorem mem_otherAgents {b : Agent} : b ∈ otherAgents ↔ b ≠ 0 := by
  revert b
  decide

/-- R132, R164: the sessions of some agents closed change the sessions alone. -/
theorem foldl_closeSession_frame (l : List Agent) (s : State) :
    l.foldl State.closeSession s = { s with sessions := (l.foldl State.closeSession s).sessions } := by
  induction l generalizing s with
  | nil => rfl
  | cons a l ih => exact ih _

/-- R132, R164: the sessions after those of some agents are closed. -/
theorem foldl_closeSession_session (l : List Agent) (s : State) (b : Agent) :
    (l.foldl State.closeSession s).sessions[b] =
      if b ∈ l then { state := .closed, lease := 0, timer := 0, attention := false } else s.sessions[b] := by
  induction l generalizing s with
  | nil => rfl
  | cons a l ih =>
    have hone : (s.closeSession a).sessions[b] =
        if b = a then { state := .closed, lease := 0, timer := 0, attention := false } else s.sessions[b] :=
      put_get_fin _ _ _ _
    rw [List.foldl_cons, ih, hone]
    by_cases h : b = a <;> by_cases hl : b ∈ l <;> simp [h, hl]

/-- R164 steps 3 to 5. -/
theorem restarted_eq (s : State) : s.restarted = { s with
    bases := tab fun b => { s.bases[b] with running := false, latch := false, interval := none }
    sessions := tab fun b =>
      if b = 0 then s.sessions[b] else { state := .closed, lease := 0, timer := 0, attention := false }
    engine := { s.engine with cause := .restart } } := by
  unfold State.restarted
  dsimp only
  rw [foldl_closeSession_frame]
  have hsessions : (otherAgents.foldl State.closeSession
      { s with bases := tab fun b => s.bases[b].restarted }).sessions = tab fun b =>
        if b = 0 then s.sessions[b] else { state := .closed, lease := 0, timer := 0, attention := false } := by
    refine Vector.ext fun k hk => ?_
    have h := foldl_closeSession_session otherAgents { s with bases := tab fun b => s.bases[b].restarted } ⟨k, hk⟩
    refine h.trans ((?_ : _ = _).trans (tab_get_fin _ ⟨k, hk⟩).symm)
    simp only [mem_otherAgents, ne_eq, ite_not]
  rw [hsessions]
  rfl

/-- R164: a visit retires the record of its slot, of any owner, and counts it. -/
theorem retireAny_eq {i : SlotIx} {n m : Nat}
    (h : s.slots[i].record.isSome = true ∧ t = s.retireSlot i ∧ m = n + 1 ∨
      s.slots[i].record = none ∧ t = s ∧ m = n) :
    s.retireSlot i = t ∧ n + s.slots[i].record.isSome.toNat = m := by
  obtain ⟨hr, rfl, rfl⟩ | ⟨hr, rfl, rfl⟩ := h
  · rw [hr]
    exact ⟨rfl, rfl⟩
  · refine ⟨?_, by rw [hr]; rfl⟩
    simp only [State.retireSlot, hr]

/-- Settles O21: RESTART discards agent by agent (`foldl_restartAgent_port`), its visits are those of `retireAny_eq`,
and the last ends with `restarted_eq`. -/
theorem restartRetiresEverything : Obligations.RestartRetiresEverything := by
  unfold Obligations.RestartRetiresEverything
  intro s
  refine ⟨fun q hc => ?begin, fun a f discarded i n hw t m h => ?visit⟩
  case begin =>
    obtain ⟨sessions, ports, e⟩ := foldl_restartAgent_frame otherAgents s
    have hop : (otherAgents.foldl State.restartAgent s).engine.op = s.engine.op := by rw [e]
    have hbegin : (otherAgents.foldl State.restartAgent s).setWork (.restarting s.queuedAgents 0 0) =
        { s with
          sessions := (otherAgents.foldl State.restartAgent s).sessions
          ports := (otherAgents.foldl State.restartAgent s).ports
          engine := { s.engine with
            op := some { agent := 0, sweep := false, work := .restarting s.queuedAgents 0 0 } } } := by
      rw [setWork_of_op (hop.trans (carries_op hc)), e]
      rfl
    have hsession (b : Agent) := foldl_restartAgent_session (l := otherAgents) s b
    have hport (b : Agent) := foldl_restartAgent_port (l := otherAgents) (by decide) s b
    refine ⟨_, s.queuedAgents, (carryOut_begins hc rfl rfl).trans (congrArg Host.Outcome.next hbegin), rfl,
      hsession 0, hport 0, queuedAgents_bit s 0, fun b hb => ⟨?_, fun d hd => ?_, fun hd => ?_, fun hd => ?_⟩⟩
    · exact (hsession b).trans (if_pos (mem_otherAgents.2 hb))
    all_goals
      rw [queuedAgents_bit, hd]
      refine ⟨by simp [hb, RequestSlot.isQueued], (hport b).trans ((if_pos (mem_otherAgents.2 hb)).trans ?_)⟩
      simp only [Port.discarded, hd, Frame.refusal]
  case visit =>
    obtain ⟨ht, hm⟩ := retireAny_eq h
    have hop := working_op hw (ht ▸ retireSlot_engine s i)
    refine ⟨fun hi => congrArg Host.Outcome.next ?_, fun hi => congrArg Host.Outcome.next ?_⟩
    · rw [hw]
      dsimp only
      rw [nextSlot_succ hi, ht, hm]
      exact setWork_of_op hop
    · subst hi
      rw [hw, ← ht, ← hm, ← restarted_eq]
      rfl

/-! ## Lapses -/

/-- R134: a lease timer runs while the session is OPEN with an interval and the request slot is EMPTY. -/
theorem timerRuns_of (hs : s.sessions[a].state = .opened) (hl : s.sessions[a].lease ≠ 0)
    (hq : s.ports[a].request = .empty) : s.timerRuns a = true := by
  simp only [State.timerRuns, hs, hq, bne_iff_ne.2 hl, beq_self_eq_true, Bool.and_self]

/-- Settles O22: the timer runs (`timerRuns_of`). -/
theorem leaseExpiryLapsesSession : Obligations.LeaseExpiryLapsesSession := by
  unfold Obligations.LeaseExpiryLapsesSession
  intro s a hs hl hq
  exact congrArg Host.Outcome.next (if_pos (timerRuns_of hs hl hq))

/-- R136, R137: a visit of a sweep, by the owner and the lapse action of the slot's record. -/
theorem sweepSlot_eq {i : SlotIx}
    (h : (∀ r, s.slots[i].record = some r → r.owner ≠ a) ∧ t = s ∨
      ∃ r, s.slots[i].record = some r ∧ r.owner = a ∧
        (r.lapse = .keep ∧ t = s.setRecord i ({ r with orphan := true }.offer .lapsed) ∨
          r.lapse = .park ∧ t = s.setRecord i (({ r.halt.1 with orphan := true }.offerAll r.halt.2).offer .lapsed) ∨
          r.lapse = .retire ∧ t = s.retireSlot i)) : s.sweepSlot a i = t := by
  unfold State.sweepSlot
  obtain ⟨hn, rfl⟩ | ⟨r, hr, ho, hl⟩ := h
  · cases hr : t.slots[i].record with
    | none => rfl
    | some r => exact if_neg (hn r hr)
  · rw [hr]
    dsimp only
    rw [if_pos ho, State.applyLapse]
    obtain ⟨hl, rfl⟩ | ⟨hl, rfl⟩ | ⟨hl, rfl⟩ := hl <;> rw [hl]
    · rfl
    · simp only [settled, Record.offerAll, List.foldl_append]
      rfl

/-- R136: a visit of a sweep leaves the engine. -/
theorem sweepSlot_engine (s : State) (a : Agent) (i : SlotIx) : (s.sweepSlot a i).engine = s.engine := by
  unfold State.sweepSlot
  split
  · split
    · unfold State.applyLapse
      split
      · rfl
      · rfl
      · exact retireSlot_engine s i
    · rfl
  · rfl

/-- Settles O23: each visit is that of `sweepSlot_eq`; the last posts nothing. -/
theorem lapseSweepAppliesLapseActions : Obligations.LapseSweepAppliesLapseActions := by
  unfold Obligations.LapseSweepAppliesLapseActions
  intro s a
  refine ⟨fun hop hq => congrArg Host.Outcome.next ?begin, fun i hop t h => ?visit⟩
  case begin =>
    dsimp only
    rw [arbitrate_busy hop, hop]
    exact (if_pos hq).trans (setWork_of_op hop)
  case visit =>
    have ht := sweepSlot_eq h
    have hop' : t.engine.op = s.engine.op := by rw [← ht, sweepSlot_engine]
    refine ⟨fun hi => congrArg Host.Outcome.next ?_, fun hi => congrArg Host.Outcome.next ?_⟩
    · rw [hop]
      dsimp only
      rw [nextSlot_succ hi, ht]
      exact setWork_of_op (hop'.trans hop)
    · subst hi
      rw [hop, ← ht]
      rfl

/-! ## ADOPT -/

/-- R178: the value of a word of a frame. -/
theorem wordAt_toNat (p : List Byte) (i : Nat) :
    (wordAt p i).toNat = (byteAt p i).toNat + 256 * (byteAt p (i + 1)).toNat := by
  have := (byteAt p i).isLt
  have := (byteAt p (i + 1)).isLt
  rw [wordAt, BitVec.toNat_ofNat, Nat.mod_eq_of_lt (by omega)]

/-- R178: a handle field above 511 is out of range. -/
theorem ofWord_wordAt_none {p : List Byte} {i : Nat} (h : 512 ≤ (byteAt p i).toNat + 256 * (byteAt p (i + 1)).toNat) :
    Handle.ofWord (wordAt p i) = none :=
  Handle.ofWord_none ((wordAt_toNat p i).symm ▸ h)

/-- R178: the handle field at the front of the parameters. -/
theorem ofWord_wordBytes (h : Handle) (p : List Byte) : Handle.ofWord (wordAt (wordBytes h.value ++ p) 0) = some h := by
  rw [wordAt_wordBytes, Handle.ofWord_value]

/-- R141: ADOPT of a field out of its range. -/
theorem adoptBody_badValue {low high agent : Byte}
    (h : 511 < low.toNat + 256 * high.toNat ∨ 3 < agent.toNat) :
    adoptBody a [low, high, agent] s = .error .badValue := by
  obtain h | h := h
  · have hw : Handle.ofWord (wordAt [low, high, agent] 0) = none := ofWord_wordAt_none h
    simp [adoptBody, hw]
  · cases hw : Handle.ofWord (wordAt [low, high, agent] 0) <;> simp [adoptBody, hw, agentOfByte_none h]

/-- R141: ADOPT of a current handle by an agent. -/
theorem adoptBody_eq {h : Handle} {r : Record} (hr : s.record? h = some r) :
    adoptBody a (wordBytes h.value ++ [toByte g.val]) s =
      if s.sessions[g].state = .opened then
        if (∀ p, r.pin = some p → s.granted g p = true) then
          .ok (.answered (s.setRecord h.slot { r with owner := g, orphan := false }) [])
        else .error .pinDenied
      else .error .badState := by
  have hg : agentOfByte (byteAt (wordBytes h.value ++ [toByte g.val]) 2) = some g := agentOfByte_toByte g
  have hgrant : (match r.pin with | some p => s.granted g p | none => true) = true ↔
      ∀ p, r.pin = some p → s.granted g p = true := by
    cases r.pin <;> simp
  have hbody : adoptBody a (wordBytes h.value ++ [toByte g.val]) s =
      if (s.sessions[g].state == .opened) = true then
        if (match r.pin with | some p => s.granted g p | none => true) = true then
          .ok (.answered (s.setRecord h.slot { r with owner := g, orphan := false }) [])
        else .error .pinDenied
      else .error .badState := by
    simp only [adoptBody, ofWord_wordBytes, hg, field_some, ok_bind, current_some hr, require_bind, pure_ok] <;> rfl
  rw [hbody]
  simp only [hgrant, beq_iff_eq]

/-- Settles O24: each case of `adoptBody_eq`, and the ranges of the fields (`adoptBody_badValue`). -/
theorem adoptChangesOwner : Obligations.AdoptChangesOwner := by
  unfold Obligations.AdoptChangesOwner
  intro s q
  refine ⟨fun low high agent hc h => carryOut_refuses hc rfl (adoptBody_badValue h), fun h r g hr hc => ?_⟩
  refine ⟨fun hs hp => ?_, fun hs => ?_, fun hs hp => ?_⟩
  · exact carryOut_answers hc rfl ((adoptBody_eq hr).trans ((if_pos hs).trans (if_pos hp)))
  · exact carryOut_refuses hc rfl ((adoptBody_eq hr).trans (if_neg hs))
  · obtain ⟨p, hp, hg⟩ := hp
    refine carryOut_refuses hc rfl ((adoptBody_eq hr).trans ((if_pos hs).trans (if_neg fun h => ?_)))
    exact Bool.false_ne_true (hg.symm.trans (h p hp))

end Sys2Proof.Machine
end

section
/-! PROOFS. Finding by tag (R20), tags and lapse actions (R22, R23), and notices (R146 to R148). -/

namespace Sys2Proof.Machine

variable {s t : State} {a g : Agent} {c : ReqCode} {q : Byte} {p : List Byte} {f : Frame} {i : SlotIx}
  {h : Handle} {r : Record}

/-! ## Fields -/

/-- R178: a slot field above 31 names no slot. -/
theorem slotOfByte_none {x : Byte} (h : 31 < x.toNat) : slotOfByte x = none :=
  dif_neg (by omega)

/-- R178: a lapse action above 2 is none. -/
theorem LapseAction.ofByte_none {x : Byte} (h : 2 < x.toNat) : LapseAction.ofByte x = none := by
  unfold LapseAction.ofByte
  split
  · omega
  · omega
  · omega
  · rfl

/-- R178: a handle's value from its generation and its slot. -/
theorem value_eq (h : Handle) : h.value = 32 * h.gen.val + h.slot.val := by
  rw [Handle.value, Nat.mul_comm]

/-! ## FIND_BY_TAG -/

/-- R20: a slot qualifies when its record carries the tag, and is the requester's or the requester the supervisor. -/
theorem hasTag_iff {tag : Byte} : s.hasTag a tag i = true ↔
    ∃ r, s.slots[i].record = some r ∧ r.tag = tag ∧ (a = 0 ∨ r.owner = a) := by
  unfold State.hasTag
  cases s.slots[i].record <;> simp [ownedBy]

/-- R20, R179: the data of a search. -/
theorem foundBytes_eq (l : List Handle) (more : Bool) :
    foundBytes l more =
      toByte (l.length + 128 * more.toNat) :: l.flatMap fun h => wordBytes (32 * h.gen.val + h.slot.val) := by
  simp only [foundBytes, value_eq]

/-- R20, R162: a visit of a search. -/
theorem exec_findByTagVisit {tag : Byte} {found : List Handle} (hw : s.working = some (a, f, .finding tag i found)) :
    exec .findByTagVisit s = .next (
      if s.hasTag a tag i = true ∧ found.length = 8 then s.post a (f.answer (foundBytes found true))
      else
        let found' := if s.hasTag a tag i then found ++ [s.handleAt i] else found
        (nextSlot i).elim (s.post a (f.answer (foundBytes found' false)))
          fun j => s.setOp (some { agent := a, sweep := false, work := .finding tag j found' })) := by
  have hop (w : Work) := setWork_of_op (w' := w) (working_iff.1 hw).1
  simp only [← hop]
  refine congrArg Host.Outcome.next ?_
  rw [hw]
  dsimp only
  cases nextSlot i <;> rfl

/-- Settles O29: the body begins at the start slot, and a visit is `exec_findByTagVisit`. -/
theorem findByTagCollectsHandles : Obligations.FindByTagCollectsHandles := by
  unfold Obligations.FindByTagCollectsHandles
  intro s a q
  refine ⟨fun tag i hc => ?begin, fun tag start hi hc => ?range, fun f tag i found hw => ?visit⟩
  case begin =>
    have hb : findByTagBody a [tag, toByte i.val] s = .ok (.begun (s.setWork (.finding tag i []))) := by
      simp [findByTagBody]
    exact (carryOut_begins hc rfl hb).trans (congrArg Host.Outcome.next (setWork_of_op (carries_op hc)))
  case range =>
    have hb : findByTagBody a [tag, start] s = .error .badValue := by simp [findByTagBody, slotOfByte_none hi]
    exact carryOut_refuses hc rfl hb
  case visit =>
    intro ends
    have hends (l : List Handle) (more : Bool) :
        .next (s.post a (f.answer (foundBytes l more))) = ends l more.toNat := by
      rw [foundBytes_eq]
      rfl
    rw [exec_findByTagVisit hw]
    refine ⟨fun ht => ⟨fun h8 => ?_, fun h8 => ?_⟩, fun ht => ?_⟩
    · rw [if_pos ⟨hasTag_iff.2 ht, h8⟩]
      exact hends found true
    · intro l
      rw [if_neg fun h => absurd h.2 (Nat.ne_of_lt h8), if_pos (hasTag_iff.2 ht)]
      refine ⟨fun hi => ?_, fun hi => ?_⟩
      · rw [nextSlot_succ hi]
        rfl
      · subst hi
        exact hends l false
    · have hn : ¬ s.hasTag a tag i = true := fun h => by
        obtain ⟨r, hr, h⟩ := hasTag_iff.1 h
        exact ht r hr h
      rw [if_neg fun h => hn h.1, if_neg hn]
      refine ⟨fun hi => ?_, fun hi => ?_⟩
      · rw [nextSlot_succ hi]
        rfl
      · subst hi
        exact hends found false

/-! ## Tag and lapse action -/

/-- Settles O30: SET_TAG and SET_LAPSE of a record that the requester may change, and of an action that is none. -/
theorem tagAndLapseRequestsReplaceOneField : Obligations.TagAndLapseRequestsReplaceOneField := by
  unfold Obligations.TagAndLapseRequestsReplaceOneField
  intro s a q h
  refine ⟨fun x hx hc => ?range, fun r hr ho => ⟨fun tag hc => ?tag, fun l hc => ?lapse⟩⟩
  case range =>
    have hb : setLapseBody a (wordBytes h.value ++ [x]) s = .error .badValue := by
      have hx : LapseAction.ofByte (byteAt (wordBytes h.value ++ [x]) 2) = none := LapseAction.ofByte_none hx
      simp only [setLapseBody, ofWord_wordBytes, hx, field_some, field_none, ok_bind, error_bind]
    exact carryOut_refuses hc rfl hb
  case tag =>
    refine carryOut_answers hc rfl ?_
    simp only [setTagBody, ofWord_wordBytes, field_some, ok_bind, ownRecord_ok hr ho, pure_ok]
    rfl
  case lapse =>
    have hl : LapseAction.ofByte (byteAt (wordBytes h.value ++ [toByte l.code]) 2) = some l := LapseAction.ofByte_code l
    refine carryOut_answers hc rfl ?_
    simp only [setLapseBody, ofWord_wordBytes, hl, field_some, ok_bind, ownRecord_ok hr ho, pure_ok]

/-! ## SET_NOTICES and SET_ATTENTION -/

/-- R178: a second word field in the parameters. -/
theorem wordAt_two (m n : Nat) (l : List Byte) : wordAt (wordBytes m ++ wordBytes n ++ l) 2 = BitVec.ofNat 16 n := by
  simp [wordBytes]

/-- R178: a notice set above 511 is none. -/
theorem noticesOfWord_none {w : Word} (h : 511 < w.toNat) : noticesOfWord w = none :=
  if_neg (by omega)

/-- Settles O32: the bodies of the two requests, at fields in and out of range. -/
theorem noticeRequestsReplaceEnables : Obligations.NoticeRequestsReplaceEnables := by
  unfold Obligations.NoticeRequestsReplaceEnables
  intro s a q
  refine ⟨fun h w hw hc => ?range, fun h r n hr ho hc => ?notices, fun x hx hc => ?bit, fun v hc => ?attention⟩
  case range =>
    have hb : setNoticesBody a (wordBytes h.value ++ wordBytes w.toNat) s = .error .badValue := by
      have hn : noticesOfWord (wordAt (wordBytes h.value ++ wordBytes w.toNat) 2) = none := by
        rw [← List.append_nil (_ ++ _), wordAt_two, BitVec.ofNat_toNat, BitVec.setWidth_eq, noticesOfWord_none hw]
      simp only [setNoticesBody, ofWord_wordBytes, hn, field_some, field_none, ok_bind, error_bind]
    exact carryOut_refuses hc rfl hb
  case notices =>
    have hn : noticesOfWord (wordAt (wordBytes h.value ++ wordBytes n.toNat) 2) = some n := by
      rw [← List.append_nil (_ ++ _), wordAt_two, noticesOfWord_set]
    refine carryOut_answers hc rfl ?_
    simp only [setNoticesBody, ofWord_wordBytes, hn, field_some, ok_bind, ownRecord_ok hr ho, pure_ok]
  case bit =>
    have hb : setAttentionBody a [x] s = .error .badValue := by simp [setAttentionBody, bitOfByte_none hx]
    exact carryOut_refuses hc rfl hb
  case attention =>
    have hb : setAttentionBody a [toByte v.toNat] s =
        .ok (.answered (s.setSession a { s.sessions[a] with attention := v })
          [toByte v.toNat, toByte (s.countRecords fun r => r.owner == a && r.pendingSet != 0)]) := by
      simp only [setAttentionBody, byteAt_zero, bitOfByte_toNat, field_some, ok_bind, pure_ok]
      rfl
    exact carryOut_answers hc rfl hb

/-! ## COLLECT -/

/-- R148: a slot that does not qualify for a COLLECT. -/
theorem collectable_eq_none (h : ∀ r, s.slots[i].record = some r → r.owner ≠ a ∨ r.pendingSet = 0) :
    s.collectable a i = none :=
  Option.eq_none_iff_forall_ne_some.2 fun r hr => by
    obtain ⟨hr, ho, hp⟩ := collectable_eq_some.1 hr
    exact (h r hr).elim (fun h => h ho) hp

/-- R182: the data of a COLLECT response. -/
theorem collectedBytes_eq (l : List Collected) (more : Bool) :
    collectedBytes l more = toByte (l.length + 128 * more.toNat) :: l.flatMap fun e =>
      wordBytes (32 * e.handle.gen.val + e.handle.slot.val +
        512 * (e.pendingSet.getLsbD 8).toNat + 1024 * (e.againSet.getLsbD 8).toNat) ++
      [e.pendingSet.setWidth 8, e.againSet.setWidth 8] := by
  have hbytes (e : Collected) : e.bytes = wordBytes (32 * e.handle.gen.val + e.handle.slot.val +
      512 * (e.pendingSet.getLsbD 8).toNat + 1024 * (e.againSet.getLsbD 8).toNat) ++
      [e.pendingSet.setWidth 8, e.againSet.setWidth 8] := by
    rw [Collected.bytes, value_eq]
    rfl
  simp only [collectedBytes, ← hbytes]

/-- R148, R162: how a scan goes on after a slot. -/
def State.collectNext (t : State) (a : Agent) (f : Frame) (i : SlotIx) (l : List Collected) : State :=
  (nextSlot i).elim (t.post a (f.answer (collectedBytes l false)))
    fun j => t.setOp (some { agent := a, sweep := false, work := .collecting j l })

/-- R148, R162: a visit of a slot that qualifies. -/
theorem exec_collectVisit_some {l : List Collected} (hw : s.working = some (a, f, .collecting i l))
    (hr : s.collectable a i = some r) :
    exec .collectVisit s = .next (
      if l.length = 6 then s.post a (f.answer (collectedBytes l true))
      else (s.setRecord i { r with pendingSet := 0, againSet := 0 }).collectNext a f i
        (l ++ [{ handle := s.handleAt i, pendingSet := r.pendingSet, againSet := r.againSet }])) := by
  have hop : (s.setRecord i { r with pendingSet := 0, againSet := 0 }).engine.op = _ := (working_iff.1 hw).1
  refine congrArg Host.Outcome.next ?_
  unfold State.collectNext
  rw [hw]
  dsimp only
  rw [hr]
  dsimp only
  cases nextSlot i with
  | none => rfl
  | some j => rw [Option.elim_some, ← setWork_of_op hop]

/-- R148, R162: a visit of a slot that does not qualify. -/
theorem exec_collectVisit_none {l : List Collected} (hw : s.working = some (a, f, .collecting i l))
    (hr : s.collectable a i = none) : exec .collectVisit s = .next (s.collectNext a f i l) := by
  refine congrArg Host.Outcome.next ?_
  unfold State.collectNext
  rw [hw]
  dsimp only
  rw [hr]
  dsimp only
  cases nextSlot i with
  | none => rfl
  | some j => exact setWork_of_op (working_iff.1 hw).1

/-- Settles O33: the body begins at the start slot; a visit is one of `exec_collectVisit_some` and
`exec_collectVisit_none`. -/
theorem collectTakesPendingNotices : Obligations.CollectTakesPendingNotices := by
  unfold Obligations.CollectTakesPendingNotices
  intro s a q
  refine ⟨fun i hc => ?begin, fun start hi hc => ?range, fun f i es hw => ?visit⟩
  case begin =>
    have hb : collectBody a [toByte i.val] s = .ok (.begun (s.setWork (.collecting i []))) := by simp [collectBody]
    exact (carryOut_begins hc rfl hb).trans (congrArg Host.Outcome.next (setWork_of_op (carries_op hc)))
  case range =>
    have hb : collectBody a [start] s = .error .badValue := by simp [collectBody, slotOfByte_none hi]
    exact carryOut_refuses hc rfl hb
  case visit =>
    intro ends goesOn
    have hends (t : State) (l : List Collected) (more : Bool) :
        .next (t.post a (f.answer (collectedBytes l more))) = ends t l more.toNat := by
      rw [collectedBytes_eq]
      rfl
    have hgoes {t : State} {l : List Collected} (h : exec .collectVisit s = .next (t.collectNext a f i l)) :
        goesOn t l := by
      refine ⟨fun hi => h.trans ?_, fun hi => h.trans ?_⟩
      · rw [State.collectNext, nextSlot_succ hi]
        rfl
      · subst hi
        exact hends t l false
    refine ⟨fun r hr ho hp => ⟨fun h6 => ?_, fun h6 => hgoes ?_⟩, fun hn =>
      hgoes (exec_collectVisit_none hw (collectable_eq_none hn))⟩
    · rw [exec_collectVisit_some hw (collectable_eq_some.2 ⟨hr, ho, hp⟩), if_pos h6]
      exact hends s es true
    · rw [exec_collectVisit_some hw (collectable_eq_some.2 ⟨hr, ho, hp⟩), if_neg (Nat.ne_of_lt h6)]
      rfl

end Sys2Proof.Machine
end

section
/-! PROOFS. The requests that read and change nothing: PING, READ_DEVICE, FIND_BY_PIN, READ_TIMEBASE and READ_INHIBIT
(R19, R34, R119, R131, R166), and the bytes of READ_RECORD (R18, R181). -/

namespace Sys2Proof.Machine

variable {s : State} {a : Agent} {q : Byte} {p : List Byte} {h : Handle} {r : Record}

/-! ## Fields -/

/-- R178: a pin number above 23 names no pin. -/
theorem pinOfNat_none {n : Nat} (h : 23 < n) : pinOfNat n = none :=
  dif_neg (by omega)

/-- R178: a handle in a response, written out. -/
theorem handleBytes_eq (o : Option Handle) : handleBytes o =
    match o with | some h => wordBytes (32 * h.gen.val + h.slot.val) | none => [0xFF, 0xFF] := by
  cases o with
  | none => rfl
  | some h => exact congrArg wordBytes (value_eq h)

/-! ## The short reads -/

/-- R131: the margin of a PING within its range. -/
theorem margin_eq {x : Session} (h : x.lease = 0 ∨ x.timer / 65536 ≤ 254) :
    toByte x.margin = if x.lease = 0 then 0 else toByte (x.timer / 65536) := by
  unfold Session.margin
  by_cases hl : x.lease = 0
  · rw [if_pos hl, if_pos hl]
    rfl
  · rw [if_neg hl, if_neg hl]
    exact congrArg toByte (Nat.min_eq_right (h.resolve_left hl))

/-- R119, R179: the three bytes of a group. -/
theorem groupBytes_eq (s : State) (g : Group) : s.groupBytes g =
    [toByte ((s.group g).enabled.toNat + (match (s.group g).policy with | .auto => 0 | .latched => 2) +
        (match (s.group g).state with | .clear => 0 | .active => 4 | .latched => 8) + 16 * (s.group g).line.toNat),
      toByte ((List.finRange 24).countP fun p =>
        decide (s.pins[p].config.role = .output ∧ s.pins[p].config.group = some g)),
      toByte (s.countRecords fun r => r.held != .clear &&
        (match r.pin with | some p => decide (s.pins[p].config.group = some g) | none => false))] := by
  have hpins : s.outputPins g = (List.finRange 24).countP fun p =>
      decide (s.pins[p].config.role = .output ∧ s.pins[p].config.group = some g) := by
    simp only [State.outputPins, Bool.decide_and, Bool.beq_eq_decide_eq]
  have hheld : (fun r : Record => s.inGroup g r && r.held != .clear) = fun r => r.held != .clear &&
      (match r.pin with | some p => decide (s.pins[p].config.group = some g) | none => false) := by
    funext r
    rw [Bool.and_comm, State.inGroup]
    cases r.pin <;> simp only [Bool.beq_eq_decide_eq]
  unfold State.groupBytes
  dsimp only
  rw [hpins, hheld]
  cases (s.group g).policy <;> cases (s.group g).state <;> rfl

/-- Settles O15: the bodies of the five requests, whose answers leave the state. -/
theorem shortReadsAnswerAndChangeNothing : Obligations.ShortReadsAnswerAndChangeNothing := by
  unfold Obligations.ShortReadsAnswerAndChangeNothing
  intro s a q
  refine ⟨fun hc hm => ?ping, fun hc => ?device, fun p hc => ?pin, fun x hx hc => ?noPin, fun b hc => ?base,
    fun x hx hc => ?noBase, fun hc => ?inhibit⟩
  case ping =>
    have hopen : s.sessions[a].state = .opened := hc.2.1.resolve_left (by decide)
    have hb : pingBody a [] s = .ok (.answered s [1, s.sessions[a].lease, toByte s.sessions[a].attention.toNat,
        if s.sessions[a].lease = 0 then 0 else toByte (s.sessions[a].timer / 65536)]) := by
      rw [← margin_eq hm, pingBody, hopen]
      rfl
    exact carryOut_answers hc rfl hb
  case device =>
    have hb : readDeviceBody a [] s = .ok (.answered s [0x32, 0x24, 1, 32, 64, 24, 4, 4,
        match s.engine.cause with | .powerOn => 0 | .resetLine => 1 | .restart => 2]) := by
      rw [readDeviceBody, State.deviceBytes]
      cases s.engine.cause <;> rfl
    exact carryOut_answers hc rfl hb
  case pin =>
    have hb : findByPinBody a [toByte p.val] s = .ok (.answered s (handleBytes s.pins[p].claim)) := by
      simp only [findByPinBody, byteAt_zero, pinOfNat_toByte, field_some, ok_bind, pure_ok]
    rw [handleBytes_eq] at hb
    exact carryOut_answers hc rfl hb
  case noPin =>
    exact carryOut_refuses hc rfl (by simp [findByPinBody, pinOfNat_none hx])
  case base =>
    have hb : readTimebaseBody a [toByte b.val] s = .ok (.answered s (s.baseBytes b)) := by
      simp only [readTimebaseBody, byteAt_zero, baseOfByte_toByte, field_some, ok_bind, pure_ok]
    refine (carryOut_answers hc rfl hb).trans ?_
    unfold State.baseBytes
    dsimp only
    cases s.bases[b].source with
    | core => rfl
    | pin p d => cases d <;> rfl
  case noBase =>
    exact carryOut_refuses hc rfl (by simp [readTimebaseBody, baseOfByte_none hx])
  case inhibit =>
    intro three
    have hb : readInhibitBody a [] s = .ok (.answered s (three .a ++ three .b)) :=
      congrArg₂ (fun x y => Except.ok (Reply.answered s (x ++ y))) (groupBytes_eq s .a) (groupBytes_eq s .b)
    exact carryOut_answers hc rfl hb

/-! ## The bytes of a record -/

/-- R181: byte 2 of a record. -/
theorem recordByte_two : ∀ (owner : Agent) (orphan held invert rearm level output : Bool),
    let d := toByte (owner.val + (if orphan then 4 else 0) + (if held then 8 else 0) + (if invert then 16 else 0) +
      (if rearm then 32 else 0) + (if level then 64 else 0) + (if output then 128 else 0))
    d.toNat % 4 = owner.val ∧ d.getLsbD 2 = orphan ∧ d.getLsbD 3 = held ∧ d.getLsbD 4 = invert ∧
      d.getLsbD 5 = rearm ∧ d.getLsbD 6 = level ∧ d.getLsbD 7 = output := by
  decide

/-- R181: byte 3 of a record. -/
theorem recordByte_three : ∀ (kind : Fin 7) (state : Fin 5) (phase : Bool),
    let d := toByte (kind.val + 16 * state.val + (if phase then 128 else 0))
    d.toNat % 16 = kind.val ∧ d.toNat / 16 % 8 = state.val ∧ d.getLsbD 7 = phase := by
  decide

/-- R181: byte 4 of a record. -/
theorem recordByte_four : ∀ (base : Base) (lapse : Fin 3) (shown : Fin 3) (wait : Base),
    let d := toByte (base.val + 4 * lapse.val + 16 * shown.val + 64 * wait.val)
    d.toNat % 4 = base.val ∧ d.toNat / 4 % 4 = lapse.val ∧ d.toNat / 16 % 4 = shown.val ∧ d.toNat / 64 = wait.val := by
  decide

/-- R181: byte 7 of a record. -/
theorem recordByte_seven : ∀ (n : Fin 9) (staged cue wait : Bool),
    let d := toByte (n.val + (if staged then 16 else 0) + (if cue then 32 else 0) + (if wait then 64 else 0))
    d.toNat % 16 = n.val ∧ d.getLsbD 4 = staged ∧ d.getLsbD 5 = cue ∧ d.getLsbD 6 = wait ∧ d.getLsbD 7 = false := by
  decide

/-- R178: a word of a response is read back. -/
theorem wordAt_of_bytes {d : List Byte} {i n : Nat} (h0 : byteAt d i = toByte n)
    (h1 : byteAt d (i + 1) = toByte (n / 256)) : wordAt d i = BitVec.ofNat 16 n := by
  have h : wordAt d i = wordAt [toByte n, toByte (n / 256)] 0 := by
    rw [wordAt, h0, h1]
    rfl
  rw [h, wordAt_bytes]

/-- R181: a word that is sent as 0 where the record has no such field. -/
theorem ofNat_ite (c : Bool) (w : Word) :
    BitVec.ofNat 16 (if c = true then w.toNat else 0) = if c = true then w else 0 := by
  cases c
  · rfl
  · exact BitVec.ofNat_toNat 16 w

/-- Settles O17: each byte and each word of the 29 is read back by itself. -/
theorem readRecordBytes : Obligations.ReadRecordBytes := by
  unfold Obligations.ReadRecordBytes
  intro s h r hlen d
  have hshown : ∃ k : Fin 3, (match r.pin with | some p => (s.shown p).code | none => 0) = k.val := by
    cases r.pin with
    | none => exact ⟨0, rfl⟩
    | some p => exact ⟨⟨(s.shown p).code, by cases s.shown p <;> decide⟩, rfl⟩
  have hwait : ∃ k : Base, (match r.groupWait with | some b => b.val | none => 0) = k.val := by
    cases r.groupWait with
    | none => exact ⟨0, rfl⟩
    | some b => exact ⟨b, rfl⟩
  obtain ⟨shown, hshown⟩ := hshown
  obtain ⟨wait, hwait⟩ := hwait
  obtain ⟨howner, horphan, hheld, hinvert, hrearm, hlevel, houtput⟩ := recordByte_two r.owner r.orphan
    (r.held != .clear) r.invert (r.kind == .pulseOnce && r.rearm) (r.kind.hasLevel && r.level) r.output
  obtain ⟨hkind, hstate, hphase⟩ := recordByte_three ⟨r.kind.code, by cases r.kind <;> decide⟩
    ⟨r.state.code, (by cases r.state <;> decide : r.state.code < 5)⟩ (r.kind.hasMarkB && r.phase == .waitB)
  obtain ⟨hbase, hlapse, hshown', hwait'⟩ := recordByte_four r.base
    ⟨r.lapse.code, by cases r.lapse <;> decide⟩ shown wait
  obtain ⟨hcount, hstaged, hcue, hgroup, hlast⟩ := recordByte_seven ⟨r.outgoing.length, by omega⟩ r.staged.isSome
    r.cue.isSome r.groupWait.isSome
  have hd : d = s.recordBytes h r := rfl
  simp only [State.recordBytes, wordBytes, List.cons_append, List.nil_append] at hd
  rw [← hshown, ← hwait] at hbase hlapse hshown' hwait'
  rw [hd]
  refine ⟨rfl, ?handle, howner, horphan, hheld, hinvert, hrearm, hlevel, houtput, hkind, hstate, hphase, hbase, hlapse,
    hshown', hwait', rfl, ?pin, hcount, hstaged, hcue, hgroup, hlast,
    (wordAt_of_bytes rfl rfl).trans (ofNat_ite _ _), (wordAt_of_bytes rfl rfl).trans (ofNat_ite _ _),
    (wordAt_of_bytes rfl rfl).trans (ofNat_ite _ _), (wordAt_of_bytes rfl rfl).trans (ofNat_ite _ _),
    ?staged, ?cue, ?enabled, ?pending, ?again⟩
  case handle => rw [wordAt_of_bytes rfl rfl, Handle.ofWord_value]
  case pin => cases r.pin <;> rfl
  case staged =>
    have hword (w : Word) : BitVec.ofNat 16 w.toNat = w := BitVec.ofNat_toNat 16 w
    cases r.staged <;>
      exact ⟨(wordAt_of_bytes rfl rfl).trans (hword _), (wordAt_of_bytes rfl rfl).trans (hword _),
        (wordAt_of_bytes rfl rfl).trans (hword _)⟩
  case cue => cases r.cue <;> rfl
  case enabled => rw [wordAt_of_bytes rfl rfl, noticesOfWord_set]
  case pending => rw [wordAt_of_bytes rfl rfl, noticesOfWord_set]
  case again => rw [wordAt_of_bytes rfl rfl, noticesOfWord_set]

end Sys2Proof.Machine
end

section
/-! PROOFS. The checks of a request (R158): session, code, length and privilege, and then the fields, handles and owners
that it names. -/

namespace Sys2Proof.Machine

variable {s : State} {a : Agent} {c : ReqCode} {q : Byte} {p : List Byte} {f : Frame} {h : Handle} {r : Record}

/-! ## Checks 1 to 4 -/

/-- R158: a request that the engine serves is refused with the status of the check that it fails. -/
theorem exec_refused {st : Status} (hs : s.serving = some (a, f)) (hc : f.code = c.byte)
    (ha : s.allow a c f.params = .error st) : exec c.command s = s.refuses a c f.seq st := by
  rw [exec_command, carryOut_served hs hc, ha, State.refuses, ← hc]
  rfl

/-- R158 check 2: a code that is no request's is not in the request table. -/
theorem knownCode_false (h : ∀ c : ReqCode, f.code ≠ c.byte) : knownCode f.code = false :=
  Bool.eq_false_iff.2 fun hk => by
    obtain ⟨c, hc⟩ := (knownCode_iff _).1 hk
    exact h c hc.symm

/-- Settles O13: the checks come to `allow_eq`; the codes and lengths are those of the request table. -/
theorem firstFailingCheckRefuses : Obligations.FirstFailingCheckRefuses := by
  unfold Obligations.FirstFailingCheckRefuses
  have hlen (p : List Byte) (n : Nat) : (p.length == n) = decide (p.length = n) := Bool.beq_eq_decide_eq _ _
  refine ⟨fun s a f hs => ⟨fun c hc => ⟨fun hopen hsess => ?session, fun hsess hl => ?length,
    fun hsess hl hsup ha => ?privilege⟩, fun hn => ?unknown⟩, ?table⟩
  case session => exact exec_refused hs hc ((allow_eq s a c _).trans (if_pos ⟨hopen, hsess⟩))
  case length =>
    refine exec_refused hs hc ((allow_eq s a c _).trans ((if_neg ?_).trans (if_pos hl)))
    exact fun ⟨h1, h2⟩ => hsess.elim h1 h2
  case privilege =>
    refine exec_refused hs hc ((allow_eq s a c _).trans ((if_neg ?_).trans ((if_neg ?_).trans (if_pos ⟨hsup, ha⟩))))
    · exact fun ⟨h1, h2⟩ => hsess.elim h1 h2
    · exact fun h => Bool.false_ne_true (h.symm.trans hl)
  case unknown =>
    have hb : s.arbitrate = s := arbitrate_busy (serving_iff.1 hs).1
    refine congrArg Host.Outcome.next ?_
    dsimp only
    rw [hb, hs]
    dsimp only
    rw [knownCode_false hn]
    rfl
  case table =>
    intro row
    refine ⟨?_, ?_, ?_, ?_, ?_, ?_, ?_, ?_, ?_, ?_, ?_, ?_, ?_, ?_, ?_, ?_, ?_, ?_, ?_, ⟨rfl, rfl, rfl, fun n p => ?_⟩,
      ?_, ?_, ?_, ?_, ?_, ?_, ⟨rfl, rfl, fun p => rfl⟩, ?_, ?_, ?_, ?_, ?_, ?_, ?_, ?_, ?_, ?_, ?_, ?_, ?_⟩
    case refine_20 =>
      have h : ReqCode.startGroup.lengthOk (n :: p) =
          (decide (1 ≤ p.length + 1) && (p.length + 1 == 1 + 2 * n.toNat)) := rfl
      rw [h, Bool.beq_eq_decide_eq, decide_eq_true (Nat.le_add_left 1 p.length), Bool.true_and]
      exact decide_eq_decide.2 (by omega)
    all_goals exact ⟨rfl, rfl, fun p => hlen p _⟩

end Sys2Proof.Machine
end

section
/-! PROOFS. The fields of LINK, LIST_LINKS and START_GROUP (R72, R78, R86), and the requests that name records (R158
checks 5 to 7). -/

namespace Sys2Proof.Machine

variable {s : State} {a : Agent} {c : ReqCode} {q : Byte} {p : List Byte} {h : Handle} {r : Record} {l : Link}
  {src : LinkSource}

/-! ## Several checks of one kind -/

/-- R158: a check made for each of several things, all of which pass. -/
theorem mapM_ok {α β : Type} {f : α → Except Status β} {g : α → β} {l : List α} (h : ∀ x ∈ l, f x = .ok (g x)) :
    l.mapM f = .ok (l.map g) := by
  induction l with
  | nil => rfl
  | cons x l ih =>
    rw [List.mapM_cons, h x (List.mem_cons_self ..), ih fun y hy => h y (List.mem_cons_of_mem _ hy)]
    rfl

/-- R158: a check made for each of several things, of which one fails, where all that fail give one status. -/
theorem mapM_error {α β : Type} {f : α → Except Status β} {e : Status} {l : List α}
    (hall : ∀ x ∈ l, f x = .error e ∨ ∃ y, f x = .ok y) (hone : ∃ x ∈ l, f x = .error e) : l.mapM f = .error e := by
  induction l with
  | nil => obtain ⟨x, hx, _⟩ := hone; cases hx
  | cons x l ih =>
    rw [List.mapM_cons]
    obtain hx | ⟨y, hy⟩ := hall x (List.mem_cons_self ..)
    · rw [hx]
      rfl
    · have hrest : ∃ x ∈ l, f x = .error e := by
        obtain ⟨z, hz, he⟩ := hone
        obtain rfl | hz := List.mem_cons.1 hz
        · rw [hy] at he
          cases he
        · exact ⟨z, hz, he⟩
      rw [hy, ih (fun z hz => hall z (List.mem_cons_of_mem _ hz)) hrest]
      rfl

/-- R158 check 5: a field-range check fails with BAD_VALUE alone. -/
def OnlyBadValue {α : Type} (x : Except Status α) : Prop :=
  ∀ e, x = .error e → e = .badValue

theorem OnlyBadValue.ok {α : Type} (x : α) : OnlyBadValue (.ok x) := fun _ h => by cases h

theorem OnlyBadValue.field {α : Type} (o : Option α) : OnlyBadValue (field o) := fun e h => by
  cases o <;> cases h
  rfl

theorem OnlyBadValue.require (ok : Bool) : OnlyBadValue (require .badValue ok) := fun e h => by
  cases ok <;> cases h
  rfl

/-- R158: field-range checks in order. -/
theorem OnlyBadValue.bind {α β : Type} {x : Except Status α} {g : α → Except Status β} (hx : OnlyBadValue x)
    (hg : ∀ y, OnlyBadValue (g y)) : OnlyBadValue (x >>= g) := fun e h => by
  cases x with
  | error e' =>
    obtain rfl : e' = e := Except.error.inj h
    exact hx e' rfl
  | ok y => exact hg y e h

/-- R158 check 5: field-range checks that do not pass. -/
theorem OnlyBadValue.error {α : Type} {x : Except Status α} (h : OnlyBadValue x) (hn : ∀ y, x ≠ .ok y) :
    x = .error .badValue := by
  cases x with
  | error e => rw [h e rfl]
  | ok y => exact absurd rfl (hn y)

/-! ## The source of a link -/

/-- R72, R78: the source type and source fields of LINK and LIST_LINKS. -/
def LinkSource.bytes : LinkSource → List Byte
  | .record h => 0 :: wordBytes h.value
  | .pin p => 1 :: wordBytes p.val

/-- R72, R78: the source fields are read back. -/
theorem linkSourceOfFields_bytes (src : LinkSource) (p : List Byte) :
    linkSourceOfFields (byteAt (src.bytes ++ p) 0) (wordAt (src.bytes ++ p) 1) = some src := by
  cases src with
  | record h =>
    have hw : wordAt ((LinkSource.record h).bytes ++ p) 1 = BitVec.ofNat 16 h.value :=
      (wordAt_one _ _).trans (wordAt_wordBytes _ p)
    rw [hw]
    simp [linkSourceOfFields, LinkSource.bytes]
  | pin k =>
    have hw : wordAt ((LinkSource.pin k).bytes ++ p) 1 = BitVec.ofNat 16 k.val :=
      (wordAt_one _ _).trans (wordAt_wordBytes _ p)
    have hk : ∀ k : Pin, pinOfNat (BitVec.ofNat 16 k.val).toNat = some k := by decide
    rw [hw]
    simp only [linkSourceOfFields, LinkSource.bytes, List.cons_append, byteAt_zero, hk]
    rfl

/-- R72, R78: the source fields that name a source. -/
theorem linkSourceOfFields_some {type : Byte} {w : Word} (h : linkSourceOfFields type w = some src) :
    type = 0 ∧ w.toNat < 512 ∧ (∃ h, src = .record h) ∨ type = 1 ∧ w.toNat < 24 ∧ ∃ p, src = .pin p := by
  unfold linkSourceOfFields at h
  split at h
  · next ht =>
    obtain ⟨x, hx, rfl⟩ := Option.map_eq_some_iff.1 h
    refine .inl ⟨BitVec.eq_of_toNat_eq ht, ?_, x, rfl⟩
    by_contra hw
    rw [Handle.ofWord_none (Nat.le_of_not_lt hw)] at hx
    cases hx
  · next ht =>
    obtain ⟨x, hx, rfl⟩ := Option.map_eq_some_iff.1 h
    refine .inr ⟨BitVec.eq_of_toNat_eq ht, ?_, x, rfl⟩
    by_contra hw
    rw [pinOfNat_none (by omega)] at hx
    cases hx
  · cases h

/-! ## LINK -/

/-- R72: the parameters of a LINK that asks for a link. -/
def Link.params (l : Link) : List Byte :=
  l.source.bytes ++ [toByte l.event.code] ++ wordBytes l.target.value ++ [toByte l.action.code, toByte l.enabled.toNat]

/-- R72: the fields of LINK are read back. -/
theorem linkFields_params (hal : l.source.allows l.event = true) : linkFields l.params = .ok l := by
  have hsrc : linkSourceOfFields (byteAt l.params 0) (wordAt l.params 1) = some l.source := by
    simp only [Link.params, List.append_assoc, linkSourceOfFields_bytes]
  have hev : byteAt l.params 3 = toByte l.event.code := by
    cases hs : l.source <;> simp [Link.params, LinkSource.bytes, hs, wordBytes]
  have htgt : wordAt l.params 4 = BitVec.ofNat 16 l.target.value := by
    cases hs : l.source <;> simp [Link.params, LinkSource.bytes, hs, wordBytes]
  have hact : byteAt l.params 6 = toByte l.action.code := by
    cases hs : l.source <;> simp [Link.params, LinkSource.bytes, hs, wordBytes]
  have hen : byteAt l.params 7 = toByte l.enabled.toNat := by
    cases hs : l.source <;> simp [Link.params, LinkSource.bytes, hs, wordBytes]
  simp [linkFields, hsrc, hev, htgt, hact, hen, hal]

/-- R72: fields that make a link are all in their ranges. -/
theorem linkFields_eq_ok (h : linkFields p = .ok l) :
    linkSourceOfFields (byteAt p 0) (wordAt p 1) = some l.source ∧ SourceEvent.ofByte (byteAt p 3) = some l.event ∧
      l.source.allows l.event = true ∧ Handle.ofWord (wordAt p 4) = some l.target ∧
      CueAction.ofByte (byteAt p 6) = some l.action ∧ bitOfByte (byteAt p 7) = some l.enabled := by
  simp only [linkFields, bind_eq_ok, field_eq_ok, require_eq_ok, pure_ok, Except.ok.injEq] at h
  obtain ⟨src, hsrc, ev, hev, _, hal, tgt, htgt, act, hact, en, hen, rfl⟩ := h
  exact ⟨hsrc, hev, hal, htgt, hact, hen⟩

/-- R72: fields that make no link are refused with BAD_VALUE. -/
theorem linkFields_badValue (h : ∀ l, linkFields p ≠ .ok l) : linkFields p = .error .badValue := by
  refine OnlyBadValue.error ?_ h
  exact .bind (.field _) fun _ => .bind (.field _) fun _ => .bind (.require _) fun _ => .bind (.field _) fun _ =>
    .bind (.field _) fun _ => .bind (.field _) fun _ => .ok _

/-- R73, R74: LINK once its fields are read. -/
def State.makeLink (s : State) (a : Agent) (l : Link) : Except Status Reply := do
  s.currentSource l.source
  let target ← s.current l.target
  require .notOwner (ownedBy a target && s.ownsSource a l.source)
  s.pinSourceCheck a l.source
  require .linkDuplicate (!s.hasLink l)
  let i ← match s.freeEntry? with | some i => Except.ok i | none => .error .linkFull
  require .linkLimit (decide ((s.linkList l.source).length < 8))
  return .answered (s.addLink i l) [toByte i.val, toByte (s.linkList l.source).length]

/-- R72: LINK reads its fields first. -/
theorem linkBody_eq (hl : linkFields p = .ok l) : linkBody a p s = s.makeLink a l := by
  simp only [linkBody, hl, ok_bind, State.makeLink] <;> rfl

/-- R72: LINK of fields that make no link. -/
theorem linkBody_badValue (h : ∀ l, linkFields p ≠ .ok l) : linkBody a p s = .error .badValue := by
  simp only [linkBody, linkFields_badValue h, error_bind]

/-- R73: LINK of a source that is not current. -/
theorem makeLink_staleSource (hs : l.source = .record h) (hn : s.record? h = none) :
    s.makeLink a l = .error .staleHandle := by
  simp [State.makeLink, State.currentSource, hs, hn]

/-- R73: LINK of a target that is not current. -/
theorem makeLink_staleTarget (hn : s.record? l.target = none) : s.makeLink a l = .error .staleHandle := by
  unfold State.makeLink State.currentSource
  cases hs : l.source with
  | record h => cases hr : s.record? h <;> simp [hr, current_none hn]
  | pin p => simp [current_none hn]

/-- R73: LINK of handles that are current, but for the owners. -/
theorem makeLink_notOwner {target : Record} (hsrc : ∀ h, l.source = .record h → (s.record? h).isSome = true)
    (ht : s.record? l.target = some target) (ho : (ownedBy a target && s.ownsSource a l.source) = false) :
    s.makeLink a l = .error .notOwner := by
  have hcur : s.currentSource l.source = .ok () := by
    unfold State.currentSource
    split
    · next h hs => rw [hsrc h hs, require_true]
    · rfl
  simp only [State.makeLink, hcur, current_some ht, ho, ok_bind, require_false, error_bind]

/-! ## START_GROUP -/

/-- R86: the handle fields of START_GROUP at a position. -/
theorem wordAt_flatMap (hs : List Handle) (i : Nat) (hi : i < hs.length) :
    wordAt (hs.flatMap fun h => wordBytes h.value) (2 * i) = BitVec.ofNat 16 hs[i].value := by
  induction hs generalizing i with
  | nil => cases hi
  | cons h hs ih =>
    cases i with
    | zero => simp [wordBytes]
    | succ i =>
      have hw := ih i (Nat.lt_of_succ_lt_succ hi)
      rw [List.flatMap_cons, wordBytes_cons, List.cons_append, List.cons_append, List.nil_append, Nat.mul_succ,
        wordAt_succ, wordAt_succ, hw]
      rfl

/-- R86: START_GROUP's handle fields are read back. -/
theorem groupHandles_params {hs : List Handle} (h8 : hs.length ≤ 8) :
    groupHandles (toByte hs.length :: hs.flatMap fun h => wordBytes h.value) = .ok hs := by
  have hn : (byteAt (toByte hs.length :: hs.flatMap fun h => wordBytes h.value) 0).toNat = hs.length :=
    toByte_toNat _ (by omega)
  have hmap : (List.range hs.length).map (fun i => hs.getD i { gen := 0, slot := 0 }) = hs := by
    refine List.ext_getElem (by simp) fun i _ h => ?_
    simp [h]
  unfold groupHandles
  rw [hn]
  refine (mapM_ok (g := fun i => hs.getD i { gen := 0, slot := 0 }) fun i hi => ?_).trans (congrArg Except.ok hmap)
  have hi : i < hs.length := List.mem_range.1 hi
  have hw : wordAt (toByte hs.length :: hs.flatMap fun h => wordBytes h.value) (1 + 2 * i) =
      BitVec.ofNat 16 hs[i].value := by
    rw [Nat.add_comm, wordAt_succ, wordAt_flatMap hs i hi]
  rw [hw, Handle.ofWord_value, field_some]
  simp [hi]

/-- R86: a handle field of START_GROUP out of its range. -/
theorem groupHandles_badValue
    (h : ∃ i < (byteAt p 0).toNat, 512 ≤ (byteAt p (1 + 2 * i)).toNat + 256 * (byteAt p (1 + 2 * i + 1)).toNat) :
    groupHandles p = .error .badValue := by
  obtain ⟨i, hi, hw⟩ := h
  refine mapM_error (fun j _ => ?_) ⟨i, List.mem_range.2 hi, by rw [ofWord_wordAt_none hw, field_none]⟩
  cases Handle.ofWord (wordAt p (1 + 2 * j)) with
  | none => exact .inl rfl
  | some h => exact .inr ⟨h, rfl⟩

/-- R86: START_GROUP once its fields are read. -/
def State.groupStart (s : State) (a : Agent) (hs : List Handle) (rs : List Record) : Except Status Reply := do
  require .notOwner (rs.all (ownedBy a))
  require .badValue (decide hs.Nodup)
  let b := match rs with | r :: _ => r.base | [] => 0
  require .baseMismatch (rs.all fun r => r.base == b)
  require .badState (rs.all fun r => r.state != .running)
  return .begun (s.setWork (.grouping b hs 0 0))

/-- R86: START_GROUP reads its fields first, and then looks for the records. -/
theorem startGroupBody_eq {hs : List Handle} (h1 : 1 ≤ hs.length) (h8 : hs.length ≤ 8) :
    startGroupBody a (toByte hs.length :: hs.flatMap fun h => wordBytes h.value) s =
      s.currentAll hs >>= s.groupStart a hs := by
  have hn : (byteAt (toByte hs.length :: hs.flatMap fun h => wordBytes h.value) 0).toNat = hs.length :=
    toByte_toNat _ (by omega)
  simp only [startGroupBody, hn, h1, h8, decide_true, Bool.and_self, require_true, ok_bind, groupHandles_params h8]
  rfl

/-- R86: START_GROUP of a handle that is not current. -/
theorem currentAll_stale {hs : List Handle} (h : ∃ h ∈ hs, s.record? h = none) :
    s.currentAll hs = .error .staleHandle := by
  obtain ⟨h, hh, hn⟩ := h
  refine mapM_error (fun k _ => ?_) ⟨h, hh, current_none hn⟩
  cases hr : s.record? k with
  | none => exact .inl (current_none hr)
  | some r => exact .inr ⟨r, current_some hr⟩

/-- R86: START_GROUP of handles that are all current finds their records. -/
theorem currentAll_ok {hs : List Handle} (hcur : ∀ h ∈ hs, (s.record? h).isSome = true) :
    ∃ rs, s.currentAll hs = .ok rs ∧ rs.length = hs.length ∧
      ∀ P : Record → Bool, rs.all P = true ↔ ∀ h ∈ hs, ∀ r, s.record? h = some r → P r = true := by
  induction hs with
  | nil => exact ⟨[], rfl, rfl, fun P => by simp⟩
  | cons h hs ih =>
    obtain ⟨rs, hrs, hlen, hall⟩ := ih fun k hk => hcur k (List.mem_cons_of_mem _ hk)
    obtain ⟨r, hr⟩ := Option.isSome_iff_exists.1 (hcur h (List.mem_cons_self ..))
    refine ⟨r :: rs, ?_, congrArg Nat.succ hlen, fun P => ?_⟩
    · have hrs : hs.mapM s.current = .ok rs := hrs
      rw [State.currentAll, List.mapM_cons, current_some hr, hrs]
      rfl
    · rw [List.all_cons, Bool.and_eq_true, hall, List.forall_mem_cons]
      exact and_congr_left' ⟨fun hp r' hr' => Option.some.inj (hr.symm.trans hr') ▸ hp, fun hp => hp r hr⟩

end Sys2Proof.Machine
end

section
/-! PROOFS. The checks of the fields, handles and owners of a request (R158 checks 5 to 7). -/

namespace Sys2Proof.Machine

variable {s : State} {a : Agent} {c : ReqCode} {q : Byte} {p : List Byte} {h : Handle} {r : Record} {l : Link}
  {src : LinkSource}

/-! ## Requests that name one record -/

/-- R157: the command of a request whose body refuses. -/
theorem exec_refuses {st : Status} (hc : s.carries a c q p) (hl : c.lengthOk p = true)
    (hb : c.body a p s = .error st) : exec c.command s = s.refuses a c q st :=
  (exec_command c s).trans (carryOut_refuses hc hl hb)

/-- R158 check 5: a handle field out of its range. -/
theorem body_badHandle (hc : c ∈ [.retire, .readRecord, .setTag, .setLapse, .setNotices, .start, .arm, .stop,
      .setLevel, .setTiming, .cancelStaged, .move, .adopt]) (hw : Handle.ofWord (wordAt p 0) = none) :
    c.body a p s = .error .badValue := by
  fin_cases hc <;>
    simp only [ReqCode.body, retireBody, readRecordBody, setTagBody, setLapseBody, setNoticesBody, startBody, armBody,
      stopBody, setLevelBody, setTimingBody, cancelStagedBody, moveBody, adoptBody, hw, field_none, error_bind]

/-- R158 check 5: the parameters after the handle, in their ranges, of a request that names one record. -/
def ReqCode.restOk (c : ReqCode) (p : List Byte) : Prop :=
  (c ∈ [.retire, .readRecord, .start, .arm, .stop, .cancelStaged] ∧ p = []) ∨
    (c = .setTag ∧ ∃ x, p = [x]) ∨ (c = .setLapse ∧ ∃ l : LapseAction, p = [toByte l.code]) ∨
    (c = .setNotices ∧ ∃ n : NoticeSet, p = wordBytes n.toNat) ∨
    (c = .setLevel ∧ ∃ v : Bool, p = [toByte v.toNat]) ∨
    (c = .setTiming ∧ ∃ t : Timing, t.period ≠ 0 ∧
      p = wordBytes t.period.toNat ++ wordBytes t.markA.toNat ++ wordBytes t.markB.toNat) ∨
    (c = .move ∧ ∃ x : Pin, p = [toByte x.val] ∨ p = [0xFF]) ∨
    (c = .adopt ∧ ∃ g : Agent, p = [toByte g.val])

/-- R178: a word field after another. -/
theorem wordAt_skip (n : Nat) (l : List Byte) (i : Nat) : wordAt (wordBytes n ++ l) (i + 2) = wordAt l i := by
  rw [wordBytes_cons, List.cons_append, List.cons_append, List.nil_append, wordAt_succ, wordAt_succ]

/-- R178: a word field after another, at the front of the rest. -/
theorem wordAt_second (m n : Nat) (l : List Byte) :
    wordAt (wordBytes m ++ (wordBytes n ++ l)) 2 = BitVec.ofNat 16 n :=
  (wordAt_skip m _ 0).trans (wordAt_wordBytes n l)

/-- R178: the byte field after a handle. -/
theorem byteAt_second (n : Nat) (x : Byte) (l : List Byte) : byteAt (wordBytes n ++ (x :: l)) 2 = x := rfl

/-- R158 checks 6 and 7: after its fields, a request looks for the record, and one that changes it for the owner. -/
theorem body_opens (hp : c.restOk p) : (∃ k, c.body a (wordBytes h.value ++ p) s = s.ownRecord a h >>= k) ∨
    (c = .readRecord ∨ c = .adopt) ∧ ∃ k, c.body a (wordBytes h.value ++ p) s = s.current h >>= k := by
  rcases hp with ⟨hc, rfl⟩ | ⟨rfl, x, rfl⟩ | ⟨rfl, l, rfl⟩ | ⟨rfl, n, rfl⟩ | ⟨rfl, v, rfl⟩ | ⟨rfl, t, ht, rfl⟩ |
    ⟨rfl, x, hx⟩ | ⟨rfl, g, rfl⟩
  · fin_cases hc
    · exact .inl ⟨_, by simp only [ReqCode.body, retireBody, ofWord_wordBytes, field_some, ok_bind] <;> rfl⟩
    · exact .inr ⟨.inl rfl, _, by
        simp only [ReqCode.body, readRecordBody, ofWord_wordBytes, field_some, ok_bind] <;> rfl⟩
    · exact .inl ⟨_, by simp only [ReqCode.body, startBody, ofWord_wordBytes, field_some, ok_bind] <;> rfl⟩
    · exact .inl ⟨_, by simp only [ReqCode.body, armBody, ofWord_wordBytes, field_some, ok_bind] <;> rfl⟩
    · exact .inl ⟨_, by simp only [ReqCode.body, stopBody, ofWord_wordBytes, field_some, ok_bind] <;> rfl⟩
    · exact .inl ⟨_, by simp only [ReqCode.body, cancelStagedBody, ofWord_wordBytes, field_some, ok_bind] <;> rfl⟩
  · exact .inl ⟨_, by simp only [ReqCode.body, setTagBody, ofWord_wordBytes, field_some, ok_bind] <;> rfl⟩
  · exact .inl ⟨_, by
      simp only [ReqCode.body, setLapseBody, ofWord_wordBytes, byteAt_second, LapseAction.ofByte_code, field_some,
        ok_bind] <;> rfl⟩
  · have hn : wordAt (wordBytes h.value ++ wordBytes n.toNat) 2 = BitVec.ofNat 16 n.toNat :=
      (wordAt_skip h.value (wordBytes n.toNat) 0).trans (wordAt_bytes n.toNat [])
    exact .inl ⟨_, by
      simp only [ReqCode.body, setNoticesBody, ofWord_wordBytes, hn, noticesOfWord_set, field_some, ok_bind] <;> rfl⟩
  · exact .inl ⟨_, by
      simp only [ReqCode.body, setLevelBody, ofWord_wordBytes, byteAt_second, bitOfByte_toNat, field_some,
        ok_bind] <;> rfl⟩
  · have hperiod : wordAt (wordBytes h.value ++
        (wordBytes t.period.toNat ++ wordBytes t.markA.toNat ++ wordBytes t.markB.toNat)) 2 = t.period := by
      rw [List.append_assoc, wordAt_second, BitVec.ofNat_toNat, BitVec.setWidth_eq]
    exact .inl ⟨_, by
      simp only [ReqCode.body, setTimingBody, ofWord_wordBytes, hperiod, bne_iff_ne.2 ht, require_true, field_some,
        ok_bind] <;> rfl⟩
  · obtain rfl | rfl := hx
    · exact .inl ⟨_, by
        simp only [ReqCode.body, moveBody, ofWord_wordBytes, byteAt_second, pinOrNone_toByte, field_some,
          ok_bind] <;> rfl⟩
    · exact .inl ⟨_, by
        simp only [ReqCode.body, moveBody, ofWord_wordBytes, byteAt_second, pinOrNone_none, field_some,
          ok_bind] <;> rfl⟩
  · have hg : agentOfByte (byteAt (wordBytes h.value ++ [toByte g.val]) 2) = some g := agentOfByte_toByte g
    exact .inr ⟨.inr rfl, _, by
      simp only [ReqCode.body, adoptBody, ofWord_wordBytes, hg, field_some, ok_bind] <;> rfl⟩

/-- R158 check 3: the length of such a request's parameters. -/
theorem restOk_length (hp : c.restOk p) : c.lengthOk (wordBytes h.value ++ p) = true := by
  rcases hp with ⟨hc, rfl⟩ | ⟨rfl, x, rfl⟩ | ⟨rfl, l, rfl⟩ | ⟨rfl, n, rfl⟩ | ⟨rfl, v, rfl⟩ | ⟨rfl, t, ht, rfl⟩ |
    ⟨rfl, x, rfl | rfl⟩ | ⟨rfl, g, rfl⟩
  · fin_cases hc <;> rfl
  all_goals rfl

/-! ## The ranges of LINK's fields -/

/-- R178: a source event field that names an event holds its code. -/
theorem SourceEvent.ofByte_some {x : Byte} {ev : SourceEvent} (h : SourceEvent.ofByte x = some ev) :
    x.toNat = ev.code := by
  unfold SourceEvent.ofByte at h
  split at h <;> cases h <;> assumption

/-- R69, R178: the source events of a record have the codes below 5. -/
theorem ofRecord_iff (ev : SourceEvent) : ev.ofRecord = true ↔ ev.code < 5 := by
  cases ev <;> decide

theorem SourceEvent.code_lt (ev : SourceEvent) : ev.code < 8 := by
  cases ev <;> decide

/-- R178: a cue action field that names an action holds its code. -/
theorem CueAction.ofByte_some {x : Byte} {act : CueAction} (h : CueAction.ofByte x = some act) :
    x.toNat = act.code := by
  unfold CueAction.ofByte at h
  split at h <;> cases h <;> assumption

/-- R72: the ranges of the fields that make a link. -/
theorem linkFields_ranges (h : linkFields p = .ok l) :
    ((byteAt p 0).toNat = 0 ∧ (wordAt p 1).toNat < 512 ∧ (byteAt p 3).toNat < 5 ∨
      (byteAt p 0).toNat = 1 ∧ (wordAt p 1).toNat < 24 ∧ 5 ≤ (byteAt p 3).toNat ∧ (byteAt p 3).toNat < 8) ∧
      (wordAt p 4).toNat < 512 ∧ (byteAt p 6).toNat < 3 ∧ (byteAt p 7).toNat < 2 := by
  obtain ⟨hsrc, hev, hal, htgt, hact, hen⟩ := linkFields_eq_ok h
  have hev' := SourceEvent.ofByte_some hev
  have hact' := CueAction.ofByte_some hact
  refine ⟨?_, ?_, ?_, ?_⟩
  · obtain ⟨ht, hw, k, hk⟩ | ⟨ht, hw, k, hk⟩ := linkSourceOfFields_some hsrc
    · rw [hk] at hal
      exact .inl ⟨congrArg BitVec.toNat ht, hw, hev' ▸ (ofRecord_iff l.event).1 hal⟩
    · rw [hk] at hal
      have hpin : l.event.ofRecord = false := by simpa [LinkSource.allows] using hal
      have hn : ¬ l.event.code < 5 := fun h => Bool.false_ne_true (hpin.symm.trans ((ofRecord_iff _).2 h))
      exact .inr ⟨congrArg BitVec.toNat ht, hw, hev' ▸ Nat.le_of_not_lt hn, hev' ▸ l.event.code_lt⟩
  · by_contra hw
    rw [Handle.ofWord_none (Nat.le_of_not_lt hw)] at htgt
    cases htgt
  · rw [hact']
    cases l.action <;> decide
  · by_contra hb
    rw [bitOfByte_none (by omega)] at hen
    cases hen

/-! ## START_GROUP -/

/-- R86: START_GROUP of a handle field out of its range, whatever the count. -/
theorem startGroupBody_badHandle
    (h : ∃ i < (byteAt p 0).toNat, 512 ≤ (byteAt p (1 + 2 * i)).toNat + 256 * (byteAt p (1 + 2 * i + 1)).toNat) :
    startGroupBody a p s = .error .badValue := by
  simp only [startGroupBody, groupHandles_badValue h, require_bind, error_bind, ite_self]

/-- R86: the length of START_GROUP's parameters. -/
theorem groupParams_length {hs : List Handle} (h1 : 1 ≤ hs.length) (h8 : hs.length ≤ 8) :
    ReqCode.startGroup.lengthOk (toByte hs.length :: hs.flatMap fun h => wordBytes h.value) = true := by
  have hn : (byteAt (toByte hs.length :: hs.flatMap fun h => wordBytes h.value) 0).toNat = hs.length :=
    toByte_toNat _ (by omega)
  have hlen : (hs.flatMap fun h => wordBytes h.value).length = 2 * hs.length := by
    simp [List.length_flatMap, Nat.mul_comm]
  refine Bool.and_eq_true_iff.2 ⟨rfl, beq_iff_eq.2 ?_⟩
  rw [hn, List.length_cons, hlen, Nat.add_comm]

/-! ## LIST_LINKS -/

/-- R72, R78: a source field out of its range. -/
theorem linkSourceOfFields_none {type : Byte} {w : Word}
    (h : 1 < type.toNat ∨ type = 0 ∧ 512 ≤ w.toNat ∨ type = 1 ∧ 24 ≤ w.toNat) : linkSourceOfFields type w = none := by
  refine Option.eq_none_iff_forall_ne_some.2 fun src hs => ?_
  have h0 : (0 : Byte).toNat = 0 := rfl
  have h1 : (1 : Byte).toNat = 1 := rfl
  obtain ⟨rfl, hw, _⟩ | ⟨rfl, hw, _⟩ := linkSourceOfFields_some hs
  · rcases h with h | ⟨_, h⟩ | ⟨h, _⟩
    · omega
    · omega
    · exact absurd h (by decide)
  · rcases h with h | ⟨h, _⟩ | ⟨_, h⟩
    · omega
    · exact absurd h (by decide)
    · omega

/-- R78: LIST_LINKS of a source or a start position out of range. -/
theorem listLinksBody_badValue
    (h : linkSourceOfFields (byteAt p 0) (wordAt p 1) = none ∨ 8 ≤ (byteAt p 3).toNat) :
    listLinksBody a p s = .error .badValue := by
  obtain h | h := h
  · simp only [listLinksBody, h, field_none, error_bind]
  · cases hs : linkSourceOfFields (byteAt p 0) (wordAt p 1) with
    | none => simp only [listLinksBody, hs, field_none, error_bind]
    | some src =>
      simp only [listLinksBody, hs, decide_eq_false (Nat.not_lt.2 h), field_some, ok_bind, require_false, error_bind]

/-- R78: LIST_LINKS of fields in range. -/
theorem listLinksBody_eq (src : LinkSource) (start : Fin 8) :
    listLinksBody a (src.bytes ++ [toByte start.val]) s =
      s.currentSource src >>= fun _ => .ok (.answered s (s.listBytes (s.linkList src) start.val)) := by
  have hbyte : byteAt (src.bytes ++ [toByte start.val]) 3 = toByte start.val := by cases src <;> rfl
  have hstart : (toByte start.val).toNat = start.val := toByte_toNat _ (by omega)
  simp only [listLinksBody, linkSourceOfFields_bytes, hbyte, hstart, start.isLt, decide_true, field_some, ok_bind,
    require_true, pure_ok]

/-! ## The refusals -/

/-- R73: what the source of a link allows, by its type. -/
theorem allows_of (h : match l.source with
      | .record _ => l.event ∈ [.started, .period, .markA, .markB, .done]
      | .pin _ => l.event ∈ [.rise, .fall, .either]) : l.source.allows l.event = true := by
  unfold LinkSource.allows
  cases hs : l.source <;> rw [hs] at h <;> simp only [List.mem_cons, List.not_mem_nil, or_false] at h
  · rcases h with h | h | h | h | h <;> rw [h] <;> rfl
  · rcases h with h | h | h <;> rw [h] <;> rfl

/-- R158 check 7: an agent other than the supervisor may not change another's record. -/
theorem ownedBy_false (h0 : a ≠ 0) (ho : r.owner ≠ a) : ownedBy a r = false := by
  simp [ownedBy, h0, ho]

/-- Settles O14: each request reads its fields first (`body_badHandle`, `linkFields_eq_ok`, `groupHandles_badValue`),
and then looks for its records and their owners (`body_opens`, `makeLink_notOwner`, `startGroupBody_eq`). -/
theorem handleAndOwnershipChecksRefuse : Obligations.HandleAndOwnershipChecksRefuse := by
  unfold Obligations.HandleAndOwnershipChecksRefuse
  intro s a q
  refine ⟨fun c p hc hs hl hw => exec_refuses hs hl (body_badHandle hc (ofWord_wordAt_none hw)),
    fun h c p hp hs => ?one, fun p => ⟨fun hl hs hw => ?linkField,
      fun hl hs hw => ?listField, fun hl hs hw => ?groupField⟩,
    fun l hs hev => ?link, fun h start hs hn => ?list, fun hs h1 h8 hc => ?group⟩
  case one =>
    have hl := restOk_length (h := h) hp
    refine ⟨fun hn => exec_refuses hs hl ?_, fun r hr h0 ho hc => exec_refuses hs hl ?_⟩
    · obtain ⟨k, hb⟩ | ⟨_, k, hb⟩ := body_opens (s := s) (a := a) (h := h) hp
      · rw [hb, ownRecord_stale hn, error_bind]
      · rw [hb, current_none hn, error_bind]
    · obtain ⟨k, hb⟩ | ⟨hc' | hc', k, hb⟩ := body_opens (s := s) (a := a) (h := h) hp
      · rw [hb, ownRecord_other hr h0 ho, error_bind]
      · exact absurd hc' hc
      · exact absurd (hs.2.2 (by rw [hc']; rfl)) h0
  case linkField =>
    refine carryOut_refuses hs (beq_iff_eq.2 hl) (linkBody_badValue fun l hok => ?_)
    obtain ⟨hsrc, htgt, _⟩ := linkFields_ranges hok
    rw [wordAt_toNat] at hsrc htgt
    obtain ⟨h0, hw⟩ | hw := hw
    · have h0 : (byteAt p 0).toNat = 0 := congrArg BitVec.toNat h0
      have hw : 512 ≤ (byteAt p 1).toNat + 256 * (byteAt p (1 + 1)).toNat := hw
      omega
    · exact absurd hw (Nat.not_le.2 htgt)
  case listField =>
    have hw' : 512 ≤ (wordAt p 1).toNat := (wordAt_toNat p 1).symm ▸ hw.2
    exact carryOut_refuses hs (beq_iff_eq.2 hl)
      (listLinksBody_badValue (.inl (linkSourceOfFields_none (.inr (.inl ⟨hw.1, hw'⟩)))))
  case groupField =>
    have hlen : ReqCode.startGroup.lengthOk p = true :=
      Bool.and_eq_true_iff.2 ⟨decide_eq_true (by omega), beq_iff_eq.2 hl⟩
    exact carryOut_refuses hs hlen (startGroupBody_badHandle hw)
  case link =>
    have hl : ReqCode.link.lengthOk l.params = true := by cases hs : l.source <;> simp [Link.params, hs] <;> rfl
    have hb : linkBody a l.params s = s.makeLink a l := linkBody_eq (linkFields_params (allows_of hev))
    refine ⟨fun hn => carryOut_refuses (p := l.params) hs hl (hb.trans ?_), fun ht hsrc h0 ho =>
      carryOut_refuses (p := l.params) hs hl (hb.trans ?_)⟩
    · obtain hn | ⟨h, hsrc, hn⟩ := hn
      · exact makeLink_staleTarget (Option.not_isSome_iff_eq_none.1 hn)
      · exact makeLink_staleSource hsrc (Option.not_isSome_iff_eq_none.1 hn)
    · obtain ⟨target, ht⟩ := Option.isSome_iff_exists.1 ht
      refine makeLink_notOwner hsrc ht (Bool.and_eq_false_iff.2 ?_)
      obtain ⟨r, hr, hne⟩ | ⟨h, hs, r, hr, hne⟩ := ho
      · exact .inl (ownedBy_false h0 (by rw [ht] at hr; cases hr; exact hne))
      · exact .inr (by rw [hs, State.ownsSource, hr, Option.any_some, ownedBy_false h0 hne])
  case list =>
    refine carryOut_refuses (p := (LinkSource.record h).bytes ++ [toByte start.val]) hs rfl ?_
    rw [listLinksBody_eq]
    simp [State.currentSource, hn]
  case group =>
    have hlen := groupParams_length h1 h8
    refine ⟨fun hn => carryOut_refuses hc hlen ?_, fun hcur h0 ho => carryOut_refuses hc hlen ?_⟩
    · rw [startGroupBody_eq h1 h8, currentAll_stale hn, error_bind]
    · obtain ⟨rs, hrs, _, hall⟩ := currentAll_ok hcur
      have hno : rs.all (ownedBy a) = false := Bool.eq_false_iff.2 fun hyes => by
        obtain ⟨h, hh, r, hr, hne⟩ := ho
        exact Bool.false_ne_true ((ownedBy_false h0 hne).symm.trans ((hall _).1 hyes h hh r hr))
      simp only [startGroupBody_eq h1 h8, hrs, ok_bind, State.groupStart, hno, require_false, error_bind]

end Sys2Proof.Machine
end

section
/-! PROOFS. START_GROUP (R86, R87), LINK (R72 to R74), and the reads of tables (R18, R78, R109, R183). -/

namespace Sys2Proof.Machine

variable {s t : State} {a : Agent} {c : ReqCode} {q : Byte} {p : List Byte} {h : Handle} {r : Record} {l : Link}
  {src : LinkSource} {f : Frame}

/-! ## START_GROUP -/

/-- R86: START_GROUP of too few or too many handles. -/
theorem startGroupBody_badCount (h : (byteAt p 0).toNat = 0 ∨ 8 < (byteAt p 0).toNat) :
    startGroupBody a p s = .error .badValue := by
  have hn : (decide (1 ≤ (byteAt p 0).toNat) && decide ((byteAt p 0).toNat ≤ 8)) = false := by
    rw [← Bool.decide_and]
    exact decide_eq_false (by omega)
  simp only [startGroupBody, hn, require_false, error_bind]

/-- R86: the checks of a START_GROUP whose records the requester may change, in their order. -/
theorem groupStart_eq {hs : List Handle} {rs : List Record} (hown : rs.all (ownedBy a) = true) (hne : rs ≠ []) :
    ∃ b ∈ rs.map Record.base, s.groupStart a hs rs =
      if ¬ hs.Nodup then .error .badValue
      else if ¬ (rs.all fun r => r.base == b) = true then .error .baseMismatch
      else if ¬ (rs.all fun r => r.state != .running) = true then .error .badState
      else .ok (.begun (s.setWork (.grouping b hs 0 0))) := by
  cases rs with
  | nil => exact absurd rfl hne
  | cons r rs =>
    refine ⟨r.base, List.mem_map_of_mem (List.mem_cons_self ..), ?_⟩
    simp only [State.groupStart, hown, require_true, ok_bind, require_bind, decide_eq_true_eq, ite_not, pure_ok]

/-- R87: what a visit of START_GROUP makes of its record. -/
theorem exec_startGroupVisit {b : Base} {hs : List Handle} {n : Nat} {flags flags' : Byte}
    (hw : s.working = some (a, f, .grouping b (h :: hs) n flags)) (ht : s.markWaiting h b = t)
    (hf : (if s.marks h then flags ||| (1#8 <<< n) else flags) = flags') :
    exec .startGroupVisit s = .next (
      if hs = [] then (t.setBase b { t.bases[b] with latch := true }).post a (f.answer [flags'])
      else t.setWork (.grouping b hs (n + 1) flags')) := by
  refine congrArg Host.Outcome.next ?_
  rw [hw]
  dsimp only
  rw [ht, hf]
  cases hs <;> rfl

/-- R87: a visit leaves the engine. -/
theorem markWaiting_engine (s : State) (h : Handle) (b : Base) : (s.markWaiting h b).engine = s.engine := by
  unfold State.markWaiting
  split
  · split <;> rfl
  · rfl

/-- Settles O38: the checks in their order (`groupStart_eq`) and the visits (`exec_startGroupVisit`). -/
theorem startGroupMarksAndSetsLatch : Obligations.StartGroupMarksAndSetsLatch := by
  unfold Obligations.StartGroupMarksAndSetsLatch
  intro s a
  refine ⟨fun q n p hc hl hn => ?count, fun q hs h1 h8 hown hc => ?checks,
    fun f b h hs n flags r hw hr t flags' ht => ?visit⟩
  case count =>
    have hlen : ReqCode.startGroup.lengthOk (n :: p) = true := by
      refine Bool.and_eq_true_iff.2 ⟨decide_eq_true (Nat.le_add_left 1 p.length), beq_iff_eq.2 ?_⟩
      exact (congrArg (· + 1) hl).trans (Nat.add_comm _ _)
    exact carryOut_refuses hc hlen (startGroupBody_badCount (hn.imp_left (congrArg BitVec.toNat)))
  case checks =>
    intro oneBase stopped
    have hcur : ∀ h ∈ hs, (s.record? h).isSome = true := fun h hh => by
      obtain ⟨r, hr, _⟩ := hown h hh
      rw [hr]
      rfl
    obtain ⟨rs, hrs, hlen, hall⟩ := currentAll_ok hcur
    have howned : rs.all (ownedBy a) = true := (hall _).2 fun h hh r hr => by
      obtain ⟨r', hr', ho⟩ := hown h hh
      cases hr.symm.trans hr'
      simpa [ownedBy] using ho
    have hne : rs ≠ [] := fun e => by
      rw [e] at hlen
      exact absurd (hlen ▸ h1) (by decide)
    obtain ⟨b, hb, hchecks⟩ := groupStart_eq (s := s) (hs := hs) howned hne
    have hbody := (startGroupBody_eq (a := a) (s := s) h1 h8).trans ((congrArg (· >>= _) hrs).trans hchecks)
    have hplen := groupParams_length h1 h8
    have hbase (b' : Base) : (rs.all fun r => r.base == b') = true ↔
        ∀ h ∈ hs, ∀ r, s.record? h = some r → r.base = b' := by simp only [hall, beq_iff_eq]
    have hhead {b' : Base} (h : ∀ h ∈ hs, ∀ r, s.record? h = some r → r.base = b') : b = b' := by
      obtain ⟨r, hr, rfl⟩ := List.mem_map.1 hb
      exact beq_iff_eq.1 (List.all_eq_true.1 ((hbase b').2 h) r hr)
    have hone : (rs.all fun r => r.base == b) = true ↔ oneBase :=
      (hbase b).trans ⟨fun h => ⟨b, h⟩, fun ⟨b', h⟩ => hhead h ▸ h⟩
    have hstop : (rs.all fun r => r.state != .running) = true ↔ stopped := by
      simp only [hall, bne_iff_ne]
      rfl
    simp only [hone, hstop] at hbody
    refine ⟨fun hd => ?_, fun hd hb => ?_, fun hd hb hst => ?_, fun b' hd hb hst => ?_⟩
    · exact carryOut_refuses hc hplen (hbody.trans (if_pos hd))
    · exact carryOut_refuses hc hplen (hbody.trans ((if_neg (not_not.2 hd)).trans (if_pos hb)))
    · exact carryOut_refuses hc hplen
        (hbody.trans ((if_neg (not_not.2 hd)).trans ((if_neg (not_not.2 hb)).trans (if_pos hst))))
    · have hb' : oneBase := ⟨b', hb⟩
      rw [if_neg (not_not.2 hd), if_neg (not_not.2 hb'), if_neg (not_not.2 hst), hhead hb] at hbody
      exact (carryOut_begins hc hplen hbody).trans (congrArg Host.Outcome.next (setWork_of_op (carries_op hc)))
  case visit =>
    have hmark : s.markWaiting h b = t ∧ (if s.marks h then flags ||| (1#8 <<< n) else flags) = flags' := by
      unfold State.markWaiting State.marks
      rw [hr]
      obtain ⟨hst, rfl, rfl⟩ | ⟨hst, rfl, rfl⟩ := ht <;> simp [hst]
    have he := exec_startGroupVisit hw hmark.1 hmark.2
    refine ⟨fun hn => ?_, fun hn => ?_⟩
    · rw [he, if_neg hn, setWork_of_op (working_op hw (hmark.1 ▸ markWaiting_engine s h b))]
    · rw [he, if_pos hn]
      rfl

/-! ## LINK -/

/-- R74: LINK once its handles and its source are accepted. -/
def State.joinList (s : State) (l : Link) : Except Status Reply := do
  require .linkDuplicate (!s.hasLink l)
  let i ← match s.freeEntry? with | some i => Except.ok i | none => .error .linkFull
  require .linkLimit (decide ((s.linkList l.source).length < 8))
  return .answered (s.addLink i l) [toByte i.val, toByte (s.linkList l.source).length]

/-- R73: LINK of handles that are current and that the requester may link. -/
theorem makeLink_owned {target : Record} (hsrc : ∀ h, l.source = .record h → (s.record? h).isSome = true)
    (ht : s.record? l.target = some target) (ho : (ownedBy a target && s.ownsSource a l.source) = true) :
    s.makeLink a l = s.pinSourceCheck a l.source >>= fun _ => s.joinList l := by
  have hcur : s.currentSource l.source = .ok () := by
    unfold State.currentSource
    split
    · next h hs => rw [hsrc h hs, require_true]
    · rfl
  simp only [State.makeLink, hcur, current_some ht, ho, ok_bind, require_true]
  rfl

/-- R74 condition 1: a link in use that agrees. -/
theorem hasLink_iff : s.hasLink l = true ↔ ∃ (k : LinkIx) (m : Link), s.links[k] = some m ∧ m.source = l.source ∧
    m.event = l.event ∧ m.target = l.target ∧ m.action = l.action := by
  simp only [State.hasLink, List.any_eq_true, List.mem_finRange, true_and, Option.any_eq_true, Link.same,
    Bool.and_eq_true, beq_iff_eq, and_assoc]

/-- R74: an agreeing link refuses another. -/
theorem joinList_duplicate (h : s.hasLink l = true) : s.joinList l = .error .linkDuplicate := by
  simp [State.joinList, h]

/-- R74: a full pool refuses a link. -/
theorem joinList_full (h : s.hasLink l = false) (hf : s.freeEntry? = none) : s.joinList l = .error .linkFull := by
  simp [State.joinList, h, hf]

/-- R74: the lowest free entry takes a link, unless its source's list is full. -/
theorem joinList_free {i : LinkIx} (h : s.hasLink l = false) (hf : s.freeEntry? = some i) :
    s.joinList l = if (s.linkList l.source).length < 8 then
        .ok (.answered (s.addLink i l) [toByte i.val, toByte (s.linkList l.source).length])
      else .error .linkLimit := by
  simp [State.joinList, h, hf, require_bind]

/-- Settles O44: the ranges (`linkFields_ranges`), the source's conditions, and then those of R74 in their order. -/
theorem linkRequestJoinsList : Obligations.LinkRequestJoinsList := by
  unfold Obligations.LinkRequestJoinsList
  intro s a q
  refine ⟨fun p hl hc => ?range, fun l target hc ht ho hsrc => ?made⟩
  case range =>
    intro b hb
    refine carryOut_refuses hc (beq_iff_eq.2 hl) (linkBody_badValue fun l hok => ?_)
    obtain ⟨hsrc, htgt, hact, hen⟩ := linkFields_ranges hok
    rw [wordAt_toNat] at hsrc htgt
    have hb' (i : Nat) : b i = (byteAt p i).toNat := rfl
    simp only [hb', Nat.reduceAdd] at hb hsrc htgt
    omega
  case made =>
    have hl : ReqCode.link.lengthOk l.params = true := by cases hs : l.source <;> simp [Link.params, hs] <;> rfl
    have hal : l.source.allows l.event = true := allows_of (by
      cases hs : l.source <;> rw [hs] at hsrc
      · exact hsrc.1
      · exact hsrc)
    have hcur : ∀ h, l.source = .record h → (s.record? h).isSome = true := fun h hs => by
      rw [hs] at hsrc
      obtain ⟨_, r, hr, _⟩ := hsrc
      rw [hr]
      rfl
    have hown : (ownedBy a target && s.ownsSource a l.source) = true := by
      refine Bool.and_eq_true_iff.2 ⟨by simpa [ownedBy] using ho, ?_⟩
      unfold State.ownsSource
      cases hs : l.source with
      | record h =>
        rw [hs] at hsrc
        obtain ⟨_, r, hr, ho⟩ := hsrc
        simpa [hr, ownedBy] using ho
      | pin p => rfl
    have hbody : linkBody a l.params s = _ :=
      (linkBody_eq (linkFields_params hal)).trans (makeLink_owned hcur ht hown)
    refine ⟨fun p hs => ⟨fun hrole => ?_, fun hrole hg => ?_⟩, fun hpin => ?_⟩
    · refine carryOut_refuses (p := l.params) hc hl (hbody.trans ?_)
      simp only [State.pinSourceCheck, hs, hrole, ne_eq, not_false_eq_true, if_true, error_bind]
    · refine carryOut_refuses (p := l.params) hc hl (hbody.trans ?_)
      simp only [State.pinSourceCheck, hs, hrole, hg, ne_eq, not_true_eq_false, if_false, if_true, error_bind]
    · intro twin n
      have hcheck : s.pinSourceCheck a l.source = .ok () := by
        unfold State.pinSourceCheck
        cases hs : l.source with
        | record h => rfl
        | pin p =>
          obtain ⟨hrole, hg⟩ := hpin p hs
          simp only [hrole, hg, ne_eq, not_true_eq_false, if_false, Bool.true_eq_false]
      rw [hcheck, ok_bind] at hbody
      have htwin (h : ¬ twin) : s.hasLink l = false := Bool.eq_false_iff.2 fun hl => h (hasLink_iff.1 hl)
      refine ⟨fun h => ?_, fun h hfull => ?_, fun h i hi hlow => ?_⟩
      · exact carryOut_refuses (p := l.params) hc hl (hbody.trans (joinList_duplicate (hasLink_iff.2 h)))
      · have hf : s.freeEntry? = none := List.find?_eq_none.2 fun k _ => by
          rw [Option.isNone_eq_false_iff.2 (hfull k)]
          exact Bool.false_ne_true
        exact carryOut_refuses (p := l.params) hc hl (hbody.trans (joinList_full (htwin h) hf))
      · have hf : s.freeEntry? = some i := find?_finRange.2 ⟨by rw [hi]; rfl, fun j hj =>
          Option.isNone_eq_false_iff.2 (hlow j hj)⟩
        have hb := hbody.trans (joinList_free (htwin h) hf)
        exact ⟨fun hn => carryOut_refuses (p := l.params) hc hl (hb.trans (if_neg (Nat.not_lt.2 hn))),
          fun hn => carryOut_answers (p := l.params) hc hl (hb.trans (if_pos hn))⟩

end Sys2Proof.Machine
end

section
/-! PROOFS. The reads of tables (R18, R78, R109, R183), and SET_LEVEL, SET_TIMING and CANCEL_STAGED (R55 to R60,
R65). -/

namespace Sys2Proof.Machine

variable {s t : State} {a : Agent} {c : ReqCode} {q : Byte} {p : List Byte} {h : Handle} {r : Record}
  {src : LinkSource} {f : Frame}

/-! ## READ_RECORD and LIST_LINKS -/

/-- R18: READ_RECORD of a current handle. -/
theorem readRecordBody_eq (hr : s.record? h = some r) :
    readRecordBody a (wordBytes h.value) s = .ok (.answered s (s.recordBytes h r)) := by
  simp [readRecordBody, handleField_eq, current_some hr]

/-- R78, R183: the data of LIST_LINKS, written out. -/
theorem listBytes_eq (s : State) (l : List LinkIx) (start : Nat) : s.listBytes l start =
    [toByte (l.length + if start + 4 < l.length then 128 else 0), toByte (min 4 (l.length - start))] ++
      ((l.drop start).take 4).flatMap fun i =>
        match s.links[i] with
        | some x => [toByte i.val] ++ wordBytes x.target.value ++
            [toByte (x.event.code + 8 * x.action.code + 128 * x.enabled.toNat)]
        | none => [] := by
  have hlink : s.linkBytes = fun i : LinkIx =>
      match s.links[i] with
      | some x => [toByte i.val] ++ wordBytes x.target.value ++
          [toByte (x.event.code + 8 * x.action.code + 128 * x.enabled.toNat)]
      | none => [] := by
    funext i
    unfold State.linkBytes
    cases s.links[i] <;> rfl
  unfold State.listBytes
  dsimp only
  rw [hlink, List.length_take, List.length_drop]

/-! ## READ_PINS -/

/-- R109: READ_PINS of a form, a first pin or a count out of range. -/
theorem readPinsBody_badValue
    (h : 1 < (byteAt p 0).toNat ∨ ¬ ((byteAt p 1).toNat < 24 ∧ 1 ≤ (byteAt p 2).toNat ∧ (byteAt p 2).toNat ≤ 8 ∧
      (byteAt p 1).toNat + (byteAt p 2).toNat ≤ 24)) : readPinsBody a p s = .error .badValue := by
  obtain h | h := h
  · simp only [readPinsBody, bitOfByte_none h, field_none, error_bind]
  · cases hb : bitOfByte (byteAt p 0) with
    | none => simp only [readPinsBody, hb, field_none, error_bind]
    | some v => simp only [readPinsBody, hb, decide_eq_false h, field_some, ok_bind, require_false, error_bind]

/-- R109: READ_PINS of a range of pins. -/
theorem readPinsBody_eq (config : Bool) (first : Pin) {n : Nat} (h1 : 1 ≤ n) (h8 : n ≤ 8) (hn : first.val + n ≤ 24) :
    readPinsBody a [toByte config.toNat, toByte first.val, toByte n] s =
      .ok (.answered s ([toByte config.toNat, toByte first.val, toByte n] ++
        (pinsFrom first.val n).flatMap fun p => if config then s.configEntry p else s.stateEntry a p)) := by
  have hfirst : (toByte first.val).toNat = first.val := toByte_toNat _ (by omega)
  have hcount : (toByte n).toNat = n := toByte_toNat _ (by omega)
  have hok : first.val < 24 ∧ 1 ≤ n ∧ n ≤ 8 ∧ first.val + n ≤ 24 := ⟨first.isLt, h1, h8, hn⟩
  have h1 : byteAt [toByte config.toNat, toByte first.val, toByte n] 1 = toByte first.val := rfl
  have h2 : byteAt [toByte config.toNat, toByte first.val, toByte n] 2 = toByte n := rfl
  simp only [readPinsBody, byteAt_zero, h1, h2, bitOfByte_toNat, hfirst, hcount, decide_eq_true hok, field_some,
    ok_bind, require_true, pure_ok]

/-- R109: the pins of a range. -/
theorem pinsFrom_eq (first n : Nat) : pinsFrom first n =
    (List.finRange 24).filter fun p => decide (first ≤ p.val ∧ p.val < first + n) := by
  simp only [pinsFrom, Bool.decide_and]

/-- R183: the bytes of a CONFIG entry, written out. -/
theorem configEntry_eq (s : State) (p : Pin) : s.configEntry p =
    [toByte (s.pins[p].config.role.code + 4 * s.pins[p].config.drive.code + 8 * s.pins[p].config.pull.code +
        32 * groupCode s.pins[p].config.group),
      toByte (s.pins[p].config.idle.code + 4 * s.pins[p].config.safe.code +
        64 * (s.pins[p].grants.getLsbD 1).toNat + 32 * (s.pins[p].grants.getLsbD 2).toNat +
        16 * (s.pins[p].grants.getLsbD 3).toNat)] := by
  simp only [State.configEntry, grantSetCode, Nat.add_assoc]

/-- R183: the bytes of a STATE entry, written out. -/
theorem stateEntry_eq (s : State) (a : Agent) (p : Pin) : s.stateEntry a p =
    toByte (s.pins[p].config.role.code + 4 * groupCode s.pins[p].config.group +
        16 * (a == 0 || s.pins[p].grants.getLsbD a.val).toNat + 32 * s.pins[p].observed.toNat +
        64 * (s.shown p).code) ::
      (match s.pins[p].claim with | some h => wordBytes h.value | none => [0xFF, 0xFF]) := by
  unfold State.stateEntry
  dsimp only
  cases s.pins[p].claim <;> rfl

/-- Settles O16: each read's body at fields in and out of range. -/
theorem tableReadsAnswerAndChangeNothing : Obligations.TableReadsAnswerAndChangeNothing := by
  unfold Obligations.TableReadsAnswerAndChangeNothing
  intro s a q
  refine ⟨fun h r hr hc => carryOut_answers hc rfl (readRecordBody_eq hr), fun src start hsrc hc => ?list,
    fun type low high start hc => ?listRange, fun config first n h1 h8 hn hc => ?pins,
    fun form first count hc hr => ?pinsRange⟩
  case list =>
    intro l
    have hlen : ReqCode.listLinks.lengthOk (src.bytes ++ [toByte start.val]) = true := by cases src <;> rfl
    have hcur : s.currentSource src = .ok () := by
      cases src with
      | record h => simp only [State.currentSource, hsrc, require_true]
      | pin p => rfl
    have hb : listLinksBody a (src.bytes ++ [toByte start.val]) s = _ := listLinksBody_eq src start
    rw [hcur, ok_bind, listBytes_eq] at hb
    exact carryOut_answers (p := src.bytes ++ [toByte start.val]) hc hlen hb
  case listRange =>
    intro source hr
    refine carryOut_refuses hc rfl (listLinksBody_badValue ?_)
    have hw : (wordAt [type, low, high, start] 1).toNat = source := wordAt_toNat _ _
    obtain h | h | h | h := hr
    · exact .inl (linkSourceOfFields_none (.inl h))
    · exact .inl (linkSourceOfFields_none (.inr (.inl ⟨h.1, hw ▸ h.2⟩)))
    · exact .inl (linkSourceOfFields_none (.inr (.inr ⟨h.1, hw ▸ h.2⟩)))
    · exact .inr h
  case pins =>
    have hb : readPinsBody a [toByte config.toNat, toByte first.val, toByte n] s = _ :=
      readPinsBody_eq config first h1 h8 hn
    refine (carryOut_answers hc rfl hb).trans ?_
    simp only [pinsFrom_eq, configEntry_eq, stateEntry_eq] <;> rfl
  case pinsRange =>
    refine carryOut_refuses hc rfl (readPinsBody_badValue (hr.imp_right fun h => ?_))
    have h0 : count = 0 → count.toNat = 0 := congrArg BitVec.toNat
    have h1 : byteAt [form, first, count] 1 = first := rfl
    have h2 : byteAt [form, first, count] 2 = count := rfl
    rw [h1, h2]
    rcases h with h | h | h | h
    · omega
    · have := h0 h
      omega
    · omega
    · omega

/-! ## SET_LEVEL, SET_TIMING and CANCEL_STAGED -/

/-- R55: SET_LEVEL of a level out of range. -/
theorem setLevelBody_badValue {x : Byte} (hx : 1 < x.toNat) :
    setLevelBody a (wordBytes h.value ++ [x]) s = .error .badValue := by
  simp only [setLevelBody, ofWord_wordBytes, byteAt_second, bitOfByte_none hx, field_some, field_none, ok_bind,
    error_bind]

/-- R55: SET_LEVEL of a record that the requester may change. -/
theorem setLevelBody_eq (hr : s.record? h = some r) (ho : a = 0 ∨ r.owner = a) (v : Bool) :
    setLevelBody a (wordBytes h.value ++ [toByte v.toNat]) s =
      if r.kind.hasLevel = true then
        .ok (.answered (s.setRecord h.slot { r with level := v, output := if r.showsLevel then v else r.output }) [])
      else .error .badValue := by
  simp only [setLevelBody, ofWord_wordBytes, byteAt_second, bitOfByte_toNat, field_some, ok_bind, ownRecord_ok hr ho,
    require_bind, pure_ok]

/-- R57: the parameters of SET_TIMING. -/
def timingParams (h : Handle) (t : Timing) : List Byte :=
  wordBytes h.value ++ wordBytes t.period.toNat ++ wordBytes t.markA.toNat ++ wordBytes t.markB.toNat

/-- R57: the fields of SET_TIMING are read back. -/
theorem timingParams_fields (h : Handle) (t : Timing) : Handle.ofWord (wordAt (timingParams h t) 0) = some h ∧
    wordAt (timingParams h t) 2 = t.period ∧ wordAt (timingParams h t) 4 = t.markA ∧
    wordAt (timingParams h t) 6 = t.markB := by
  have hword (w : Word) : BitVec.ofNat 16 w.toNat = w := BitVec.ofNat_toNat 16 w
  simp only [timingParams, List.append_assoc]
  refine ⟨ofWord_wordBytes h _, ?_, ?_, ?_⟩
  · rw [wordAt_second, hword]
  · rw [wordAt_skip, wordAt_second, hword]
  · rw [wordAt_skip, wordAt_skip]
    exact (wordAt_skip _ _ 0).trans ((wordAt_bytes _ []).trans (hword _))

/-- R57 to R60: SET_TIMING of a record that the requester may change: its checks in their order, and what it changes. -/
theorem setTimingBody_eq (hr : s.record? h = some r) (ho : a = 0 ∨ r.owner = a) (t : Timing) :
    setTimingBody a (timingParams h t) s =
      if t.period = 0 ∨ r.kind.timed = false ∨ (r.kind.hasMarkB || t.markB == 0) = false then .error .badValue
      else if r.state = .running ∧ r.kind.oneShot = true then .error .recordBusy
      else if r.state = .running then
        .ok (.answered (s.setRecord h.slot { r with staged := some t }) [if r.staged.isSome then 3 else 1])
      else .ok (.answered (s.setRecord h.slot { r with timing := t, counter := 0 }) [0]) := by
  obtain ⟨hh, h2, h4, h6⟩ := timingParams_fields h t
  simp only [setTimingBody, hh, h2, h4, h6, field_some, ok_bind, ownRecord_ok hr ho, require_bind, pure_ok]
  by_cases hp : t.period = 0
  · simp [hp]
  · generalize (r.kind.hasMarkB || t.markB == 0) = markB
    cases r.kind.timed <;> cases markB <;> simp
    by_cases hst : r.state = .running
    · cases r.kind.oneShot <;> simp [hst]
    · simp [hst]

/-- R65: CANCEL_STAGED of a record that the requester may change. -/
theorem cancelStagedBody_eq (hr : s.record? h = some r) (ho : a = 0 ∨ r.owner = a) :
    cancelStagedBody a (wordBytes h.value) s =
      .ok (.answered (s.setRecord h.slot { r with staged := none }) [if r.staged.isSome then 1 else 0]) := by
  simp only [cancelStagedBody, handleField_eq, field_some, ok_bind, ownRecord_ok hr ho, pure_ok]

/-- Settles O37: each case of the three bodies, by the kind and the state of the record. -/
theorem levelAndTimingRequests : Obligations.LevelAndTimingRequests := by
  unfold Obligations.LevelAndTimingRequests
  intro s a q h
  refine ⟨fun x hx hc => carryOut_refuses hc rfl (setLevelBody_badValue hx), fun r hr ho =>
    ⟨fun v hc => ?level, fun t hc => ?timing, fun hc => carryOut_answers hc rfl (cancelStagedBody_eq hr ho)⟩⟩
  case level =>
    have hb := setLevelBody_eq hr ho v
    refine ⟨fun hk => ?_, fun hk => ?_, fun hl ht => ?_⟩
    · have hshow : r.kind.hasLevel = true ∧ r.showsLevel = true := by
        rcases hk with ⟨hk, hs⟩ | ⟨hk, hs | hs⟩ <;> simp [Record.showsLevel, Kind.hasLevel, hk, hs]
      rw [hshow.1, hshow.2] at hb
      exact carryOut_answers hc rfl hb
    · have hshow : r.kind.hasLevel = true ∧ r.showsLevel = false := by
        rcases hk with ⟨hk, hs⟩ | ⟨hk, hs | hs⟩ <;> simp [Record.showsLevel, Kind.hasLevel, hk, hs]
      rw [hshow.1, hshow.2] at hb
      exact carryOut_answers hc rfl hb
    · have hno : ¬ r.kind.hasLevel = true := by
        revert hl ht
        cases r.kind <;> decide
      exact carryOut_refuses hc rfl (hb.trans (if_neg hno))
  case timing =>
    intro markBOk
    have hb := setTimingBody_eq hr ho t
    have hmark : (r.kind.hasMarkB || t.markB == 0) = true ↔ markBOk := by
      have hkind : r.kind.hasMarkB = true ↔ r.kind = .pulseOnce ∨ r.kind = .pulseTrain := by
        cases r.kind <;> decide
      rw [Bool.or_eq_true, hkind, beq_iff_eq, or_assoc]
    have hok (hp : t.period ≠ 0) (hm : markBOk) (hk : r.kind ≠ .level) :
        ¬ (t.period = 0 ∨ r.kind.timed = false ∨ (r.kind.hasMarkB || t.markB == 0) = false) := by
      have htimed : r.kind.timed = true := by
        revert hk
        cases r.kind <;> decide
      rw [htimed, hmark.2 hm]
      exact fun h => h.elim hp fun h => h.elim (Bool.false_ne_true ·.symm) (Bool.false_ne_true ·.symm)
    refine ⟨fun hp hm hst hk => ?_, fun hp hm hst hk => ?_, fun hp hm hst hk => ?_, fun hbad => ?_⟩
    · have hkind : r.kind ≠ .level ∧ r.kind.oneShot = false := by rcases hk with hk | hk | hk <;> rw [hk] <;> decide
      rw [if_neg (hok hp hm hkind.1), if_neg fun h => Bool.false_ne_true (hkind.2.symm.trans h.2), if_pos hst] at hb
      exact carryOut_answers (p := timingParams h t) hc rfl hb
    · rw [if_neg (hok hp hm hk), if_neg fun h => hst h.1, if_neg hst] at hb
      exact carryOut_answers (p := timingParams h t) hc rfl hb
    · have hkind : r.kind ≠ .level ∧ r.kind.oneShot = true := by rcases hk with hk | hk | hk <;> rw [hk] <;> decide
      rw [if_neg (hok hp hm hkind.1), if_pos ⟨hst, hkind.2⟩] at hb
      exact carryOut_refuses (p := timingParams h t) hc rfl hb
    · refine carryOut_refuses (p := timingParams h t) hc rfl (hb.trans (if_pos ?_))
      rcases hbad with hp | hk | hm
      · exact .inl hp
      · exact .inr (.inl (by rw [hk]; rfl))
      · exact .inr (.inr (Bool.eq_false_iff.2 (hmark.not.2 hm)))

end Sys2Proof.Machine
end

section
/-! PROOFS. A record's start and stop (R41, R54), its taking of a tick (R36 to R38), and its compare (R43 to R49). -/

namespace Sys2Proof.Machine

variable {r : Record}

/-! ## Starting and stopping -/

/-- R54: what a stop of a record that is not IDLE raises. -/
theorem toIdle_occurs (r : Record) : r.toIdle.2 =
    (if r.staged.isSome then [.committed] else []) ++ (if r.held = .owed then [.released] else []) := by
  have h : r.toIdle.2 = r.commit.2 ++ r.commit.1.payRelease.2 := rfl
  rw [h, payRelease_occurs, commit_occurs, commit_frame]

/-- R54: a stop of a record that is not IDLE removes its group-wait and its pending cue as well. -/
theorem halt_of_not_idle (h : r.state ≠ .idle) : r.halt = ({ r.toIdle.1 with cue := none }, r.toIdle.2) := by
  simp only [Record.halt, if_neg h, toIdle_eq]

/-- Settles O36: the start is the start level and then the compare; the stop is `halt_of_not_idle`. -/
theorem startAndStopOfARecord : Obligations.StartAndStopOfARecord := by
  unfold Obligations.StartAndStopOfARecord
  intro r x
  have hlevel : r.startLevel = match r.kind with
      | .level | .toggleAt => r.level
      | .clearAt => true
      | .pwm => r.timing.markA != 0
      | .setAt | .pulseOnce | .pulseTrain => false := by
    unfold Record.startLevel
    cases r.kind <;> rfl
  have hx : x = { r with
      state := .running, counter := 0, phase := .waitA, groupWait := none, output := r.startLevel } :=
    congrArg (fun v => ({ r with
      state := .running, counter := 0, phase := .waitA, groupWait := none, output := v } : Record)) hlevel.symm
  refine ⟨?start, fun hk => ?flat, fun hi => ?idle, fun hi => ?stop⟩
  case start =>
    rw [hx]
    rfl
  case flat =>
    have hk : x.kind = .level := hk
    simp only [Record.compare, hk]
  case idle => simp only [Record.halt, if_pos hi]
  case stop =>
    rw [halt_of_not_idle hi, toIdle_occurs, toIdle_eq]
    unfold Record.restLevel
    cases r.kind <;> rfl

/-! ## Taking a tick -/

/-- R38: what the boundary work raises before the compare. -/
theorem cross_occurs (r : Record) : r.cross = (r.cross.1,
    (if r.staged.isSome then [.committed] else []) ++ (if r.held = .owed then [.released] else []) ++ [.period] ++
      ({ r with
        counter := 0, staged := none, timing := r.staged.getD r.timing
        held := if r.held = .owed then .clear else r.held } : Record).compare.2) := by
  refine Prod.ext rfl ?_
  have h : r.cross.2 = ({ r with counter := 0 } : Record).commit.2 ++
      ({ r with counter := 0 } : Record).commit.1.payRelease.2 ++ [.period] ++
      (({ r with counter := 0 } : Record).commit.1.payRelease.1).compare.2 := rfl
  rw [h, payRelease_occurs, payRelease_frame, commit_occurs, commit_frame]

/-- R36: a record without a group start and without a pending cue advances. -/
theorem takeTick_of_no_cue {latch : Bool} (hw : ¬ (latch = true ∧ r.groupWait = some r.base)) (hc : r.cue = none) :
    r.takeTick latch = r.advance := by
  simp only [Record.takeTick, if_neg hw, hc]

/-- R36, R84: a record without a group start takes its pending cue. -/
theorem takeTick_of_cue {latch : Bool} {c : Cue} (hw : ¬ (latch = true ∧ r.groupWait = some r.base))
    (hc : r.cue = some c) : r.takeTick latch = ({ r with cue := none } : Record).takeCue c.action := by
  simp only [Record.takeTick, if_neg hw, hc]

/-- R54, R84: a stop by a cue is that of a request where no cue is pending. -/
theorem halt_of_no_cue (h : r.state ≠ .idle) (hc : r.cue = none) : r.halt = r.toIdle := by
  have hcue : r.toIdle.1.cue = none := by rw [toIdle_eq]; exact hc
  rw [halt_of_not_idle h, ← hcue]

/-- R37: every kind but LEVEL is timed. -/
theorem timed_iff {k : Kind} : k.timed = true ↔ k ≠ .level := by
  cases k <;> decide

/-- R37: a record that does not count ends its taking of the tick. -/
theorem advance_still (h : r.state ≠ .running ∨ r.kind = .level) : r.advance = (r, []) :=
  if_neg fun ⟨hs, ht⟩ => h.elim (· hs) (timed_iff.1 ht)

/-- R37, R38: a record that counts compares at the next value, or crosses the boundary. -/
theorem advance_counting (hs : r.state = .running) (hk : r.kind ≠ .level) :
    r.advance = if r.counter.toNat + 1 < r.timing.period.toNat then
      ({ r with counter := r.counter + 1 } : Record).compare else r.cross :=
  if_pos ⟨hs, timed_iff.2 hk⟩

/-- R84: an ALIGN cue is ignored by a record that does not count. -/
theorem takeCue_align_still (h : r.state ≠ .running ∨ r.kind = .level) : r.takeCue .align = r.advance := by
  unfold Record.takeCue
  cases hs : r.state with
  | running =>
    have hk : r.kind = .level := h.resolve_left fun h => h hs
    exact if_neg fun ht => timed_iff.1 ht hk
  | idle => rfl
  | armed => rfl
  | done => rfl

/-- Settles O40: the order of `Record.takeTick`, `Record.advance` and `Record.cross`. -/
theorem recordTakesTickInOrder : Obligations.RecordTakesTickInOrder := by
  unfold Obligations.RecordTakesTickInOrder
  intro r latch y
  refine ⟨fun hw => if_pos hw, fun hw => ⟨takeTick_of_no_cue hw, fun c hc => ?cue⟩, advance_still,
    fun hs hk => ⟨fun h => (advance_counting hs hk).trans (if_pos h),
      fun h => (advance_counting hs hk).trans (if_neg (Nat.not_lt.2 h))⟩, ?boundary⟩
  case cue =>
    intro x
    have htake : r.takeTick latch = x.takeCue c.action := takeTick_of_cue hw hc
    have hstate : x.state = r.state := rfl
    refine ⟨fun ha hs => ?_, fun ha hs => ?_, fun ha hs => ?_, fun ha hs => ?_, fun ha hs hk => ?_, fun ha hs => ?_⟩
    all_goals rw [htake, ha]
    · rcases hs with hs | hs <;> simp only [Record.takeCue, hstate, hs]
    · rcases hs with hs | hs <;> simp only [Record.takeCue, hstate, hs]
    · rcases hs with hs | hs <;>
        exact (halt_of_no_cue (r := x) (by rw [hstate, hs]; decide) rfl).symm ▸ by
          simp only [Record.takeCue, hstate, hs]
    · rcases hs with hs | hs <;> simp only [Record.takeCue, hstate, hs]
    · simp only [Record.takeCue, hstate, hs]
      exact if_pos (timed_iff.2 hk)
    · exact takeCue_align_still hs
  case boundary =>
    rw [cross_occurs, cross_eq]

/-! ## The compare -/

/-- R43: a mark is met when the counter is at it and it is below the period. -/
theorem meets_iff {m : Word} : r.meets m = true ↔ r.counter = m ∧ m < r.timing.period := by
  rw [Record.meets, Bool.and_eq_true, decide_eq_true_eq, beq_iff_eq, and_comm]

/-- R44: LEVEL records make no compare. -/
theorem compare_level (hk : r.kind = .level) : r.compare = (r, []) := by
  simp only [Record.compare, hk]

/-- R45: the compare of SET_AT. -/
theorem compare_setAt (hk : r.kind = .setAt) : r.compare =
    if r.meets r.timing.markA then ({ r with output := true, state := .done }, [.markA, .done]) else (r, []) := by
  simp only [Record.compare, hk]

/-- R45: the compare of CLEAR_AT. -/
theorem compare_clearAt (hk : r.kind = .clearAt) : r.compare =
    if r.meets r.timing.markA then ({ r with output := false, state := .done }, [.markA, .done]) else (r, []) := by
  simp only [Record.compare, hk]

/-- R46: the compare of TOGGLE_AT. -/
theorem compare_toggleAt (hk : r.kind = .toggleAt) : r.compare =
    if r.meets r.timing.markA then ({ r with output := !r.output }, [.markA]) else (r, []) := by
  simp only [Record.compare, hk]

/-- R47, R48: the compare of a pulse kind in phase WAIT_A. -/
theorem compare_waitA (hk : r.kind = .pulseOnce ∨ r.kind = .pulseTrain) (hp : r.phase = .waitA) : r.compare =
    if r.meets r.timing.markA then ({ r with output := true, phase := .waitB }, [.markA]) else (r, []) := by
  rcases hk with hk | hk <;> simp only [Record.compare, hk, hp]

/-- R47: the compare of PULSE_ONCE in phase WAIT_B. -/
theorem compare_pulseOnce (hk : r.kind = .pulseOnce) (hp : r.phase = .waitB) : r.compare =
    if r.meets r.timing.markB then
      if r.rearm then
        ({ r with output := false, phase := .waitA, state := .armed, counter := 0 }, [.markB, .done])
      else ({ r with output := false, phase := .waitA, state := .done }, [.markB, .done])
    else (r, []) := by
  simp only [Record.compare, hk, hp]

/-- R48: the compare of PULSE_TRAIN in phase WAIT_B. -/
theorem compare_pulseTrain (hk : r.kind = .pulseTrain) (hp : r.phase = .waitB) : r.compare =
    if r.meets r.timing.markB then ({ r with output := false, phase := .waitA }, [.markB]) else (r, []) := by
  simp only [Record.compare, hk, hp]

/-- R49: the compare of PWM. -/
theorem compare_pwm (hk : r.kind = .pwm) : r.compare =
    if r.counter = 0 then ({ r with output := r.timing.markA != 0 }, [])
    else if r.meets r.timing.markA then ({ r with output := false }, [.markA])
    else (r, []) := by
  simp only [Record.compare, hk]

/-- R44 to R49: what a compare can do: change the output alone, raise mark A, or raise mark B in phase WAIT_B; and DONE
with its mark as the record leaves RUNNING. -/
def Record.ComparesTo (r : Record) (x : Record × List Occurrence) : Prop :=
  (∃ v, x = ({ r with output := v }, [])) ∨
    r.meets r.timing.markA = true ∧
      ((∃ v ph, x = ({ r with output := v, phase := ph }, [.markA])) ∨
        ∃ v, x = ({ r with output := v, state := .done }, [.markA, .done])) ∨
    (r.phase = .waitB ∧ r.meets r.timing.markB = true) ∧
      (x = ({ r with output := false, phase := .waitA }, [.markB]) ∨
        x = ({ r with output := false, phase := .waitA, state := .done }, [.markB, .done]) ∨
        x = ({ r with output := false, phase := .waitA, state := .armed, counter := 0 }, [.markB, .done]))

/-- R44: a compare that does nothing. -/
theorem comparesTo_same (r : Record) : r.ComparesTo (r, []) :=
  .inl ⟨r.output, rfl⟩

/-- R44 to R49: all that a compare can do. -/
theorem compare_cases (r : Record) : r.ComparesTo r.compare := by
  cases hk : r.kind with
  | level => exact compare_level hk ▸ comparesTo_same r
  | setAt =>
    rw [compare_setAt hk]
    split
    · next hm => exact .inr (.inl ⟨hm, .inr ⟨true, rfl⟩⟩)
    · exact comparesTo_same r
  | clearAt =>
    rw [compare_clearAt hk]
    split
    · next hm => exact .inr (.inl ⟨hm, .inr ⟨false, rfl⟩⟩)
    · exact comparesTo_same r
  | toggleAt =>
    rw [compare_toggleAt hk]
    split
    · next hm => exact .inr (.inl ⟨hm, .inl ⟨_, r.phase, rfl⟩⟩)
    · exact comparesTo_same r
  | pulseOnce =>
    cases hp : r.phase with
    | waitA =>
      rw [compare_waitA (.inl hk) hp]
      split
      · next hm => exact .inr (.inl ⟨hm, .inl ⟨true, .waitB, rfl⟩⟩)
      · exact comparesTo_same r
    | waitB =>
      rw [compare_pulseOnce hk hp]
      split
      · next hm =>
        split
        · exact .inr (.inr ⟨⟨hp, hm⟩, .inr (.inr rfl)⟩)
        · exact .inr (.inr ⟨⟨hp, hm⟩, .inr (.inl rfl)⟩)
      · exact comparesTo_same r
  | pulseTrain =>
    cases hp : r.phase with
    | waitA =>
      rw [compare_waitA (.inr hk) hp]
      split
      · next hm => exact .inr (.inl ⟨hm, .inl ⟨true, .waitB, rfl⟩⟩)
      · exact comparesTo_same r
    | waitB =>
      rw [compare_pulseTrain hk hp]
      split
      · next hm => exact .inr (.inr ⟨⟨hp, hm⟩, .inl rfl⟩)
      · exact comparesTo_same r
  | pwm =>
    rw [compare_pwm hk]
    split
    · exact .inl ⟨_, rfl⟩
    · split
      · next hm => exact .inr (.inl ⟨hm, .inl ⟨false, r.phase, rfl⟩⟩)
      · exact comparesTo_same r

/-- Settles O41: the compare kind by kind, and what holds of all of them by `compare_cases`. -/
theorem compareRaisesAtMostOneMark : Obligations.CompareRaisesAtMostOneMark := by
  unfold Obligations.CompareRaisesAtMostOneMark
  intro r hs
  refine ⟨?kinds, ?all⟩
  case kinds =>
    intro at_ atA atB
    have hA : atA ↔ r.meets r.timing.markA = true := meets_iff.symm
    have hB : atB ↔ r.meets r.timing.markB = true := meets_iff.symm
    simp only [hA, hB]
    refine ⟨compare_level, fun hk => ?_, fun hk => ?_, fun hk => ?_, fun hk => ?_, fun hk hp hm => ?_,
    fun hk hp hm => ?_,
      fun hk => ?_⟩
    · rw [compare_setAt hk]
      exact ⟨fun h => if_pos h, fun h => if_neg h⟩
    · rw [compare_clearAt hk]
      exact ⟨fun h => if_pos h, fun h => if_neg h⟩
    · rw [compare_toggleAt hk]
      exact ⟨fun h => if_pos h, fun h => if_neg h⟩
    · refine ⟨fun hp h => (compare_waitA hk hp).trans (if_pos h), fun hp h => (compare_waitA hk hp).trans (if_neg h),
        fun hp h => ?_⟩
      rcases hk with hk | hk
      · exact (compare_pulseOnce hk hp).trans (if_neg h)
      · exact (compare_pulseTrain hk hp).trans (if_neg h)
    · rw [compare_pulseOnce hk hp, if_pos hm]
      exact ⟨fun h => if_neg (Bool.eq_false_iff.1 h), fun h => if_pos h⟩
    · exact (compare_pulseTrain hk hp).trans (if_pos hm)
    · rw [compare_pwm hk]
      exact ⟨fun h => if_pos h, fun h hm => (if_neg h).trans (if_pos hm), fun h hm => (if_neg h).trans (if_neg hm)⟩
  case all =>
    generalize hx : r.compare = x
    have hc : r.ComparesTo x := hx ▸ compare_cases r
    rcases hc with ⟨v, rfl⟩ | ⟨hm, ⟨v, ph, rfl⟩ | ⟨v, rfl⟩⟩ | ⟨⟨hp, hm⟩, rfl | rfl | rfl⟩
    · simp [hs]
    · simpa [hs] using meets_iff.1 hm
    · simpa [hs] using meets_iff.1 hm
    · simpa [hs, hp] using meets_iff.1 hm
    · simpa [hs, hp] using meets_iff.1 hm
    · simpa [hs, hp] using meets_iff.1 hm

end Sys2Proof.Machine
end

section
/-! PROOFS. A record over its run: its output any number of ticks after its start (R37 to R39, R43 to R49). -/

namespace Sys2Proof.Machine

variable {r x y : Record} {n c : Nat}

/-! ## A tick of a run -/

/-- R36: what a tick without a latch makes of a record. -/
def Record.tick (y : Record) : Record :=
  (y.takeTick false).1

/-- R42: a record `n` ticks after its start. -/
def Record.after (r : Record) (n : Nat) : Record :=
  Record.tick^[n] r.begin.1

theorem after_succ (r : Record) (n : Nat) : r.after (n + 1) = (r.after n).tick :=
  Function.iterate_succ_apply' ..

/-- The fields that a run leaves as they are, with no cue and no staged copy to take. -/
structure Record.SameRun (r x : Record) : Prop where
  kind : x.kind = r.kind
  timing : x.timing = r.timing
  level : x.level = r.level
  rearm : x.rearm = r.rearm
  cue : x.cue = none
  staged : x.staged = none

/-- The record runs and its counter has come to a value; the compare for it is to be made. -/
structure Record.Reaches (r y : Record) (c : Nat) : Prop where
  run : r.SameRun y
  state : y.state = .running
  counter : y.counter.toNat = c

/-- R43 to R49: a compare leaves the fields of a run. -/
theorem Record.SameRun.compare (h : r.SameRun y) : r.SameRun y.compare.1 := by
  rw [compare_frame]
  exact ⟨h.kind, h.timing, h.level, h.rearm, h.cue, h.staged⟩

/-- R41, R42: a start comes to counter 0 in phase WAIT_A at the start level, and compares. -/
theorem begin_reaches (hst : r.staged = none) (hc : r.cue = none) :
    ∃ y, r.Reaches y 0 ∧ y.phase = .waitA ∧ y.output = r.startLevel ∧ r.after 0 = y.compare.1 :=
  ⟨{ r with state := .running, counter := 0, phase := .waitA, output := r.startLevel, groupWait := none },
    ⟨⟨rfl, rfl, rfl, rfl, hc, hst⟩, rfl, rfl⟩, rfl, rfl, rfl⟩

/-- R36: a tick of a record of a run is its advance. -/
theorem tick_eq (h : r.SameRun x) : x.tick = x.advance.1 :=
  congrArg Prod.fst (takeTick_of_no_cue (fun h => Bool.false_ne_true h.1) h.cue)

/-- R36: a record that has left RUNNING stays as it is. -/
theorem tick_still (h : r.SameRun x) (hs : x.state ≠ .running) : x.tick = x := by
  rw [tick_eq h, advance_still (.inl hs)]

/-- R37, R38: a tick of a record of a timed kind brings its counter to the next value, or to 0 at the boundary, and
compares. -/
theorem tick_reaches (hk : r.kind ≠ .level) (h : r.Reaches x c) :
    ∃ y, r.Reaches y (if c + 1 < r.timing.period.toNat then c + 1 else 0) ∧ y.phase = x.phase ∧ y.output = x.output ∧
      x.tick = y.compare.1 := by
  have hk' : x.kind ≠ .level := h.run.kind ▸ hk
  have hp : x.timing.period = r.timing.period := congrArg Timing.period h.run.timing
  rw [tick_eq h.run, advance_counting h.state hk', hp, h.counter]
  obtain ⟨run, hs, hcount⟩ := h
  split
  · next hlt =>
    refine ⟨{ x with counter := x.counter + 1 },
      ⟨⟨run.kind, run.timing, run.level, run.rearm, run.cue, run.staged⟩, hs, ?_⟩, rfl, rfl, rfl⟩
    have hp := r.timing.period.isLt
    show (x.counter + 1).toNat = c + 1
    have h1 : (1 : Word).toNat = 1 := rfl
    rw [BitVec.toNat_add, hcount, h1]
    exact Nat.mod_eq_of_lt (by omega)
  · refine ⟨{ x with
      counter := 0, timing := x.staged.getD x.timing, staged := none
      held := if x.held = .owed then .clear else x.held }, ⟨⟨run.kind, ?_, run.level, run.rearm, run.cue, rfl⟩, hs, rfl⟩, rfl,
      rfl, cross_eq x⟩
    show x.staged.getD x.timing = _
    rw [run.staged]
    exact run.timing

/-- R43: a mark is met at its value, if it is below the period. -/
theorem Record.Reaches.meets (h : r.Reaches y c) {m : Word} :
    y.meets m = true ↔ c = m.toNat ∧ m.toNat < r.timing.period.toNat := by
  rw [meets_iff, h.run.timing, ← h.counter, BitVec.lt_def]
  exact and_congr_left' BitVec.toNat_inj.symm

/-! ## One-shot kinds -/

/-- R45: the level to which SET_AT or CLEAR_AT changes its output. -/
def Record.shotLevel (r : Record) : Bool :=
  r.kind == .setAt

/-- R45: the compare of SET_AT and of CLEAR_AT. -/
theorem compare_shot (hk : r.kind = .setAt ∨ r.kind = .clearAt) : r.compare =
    if r.meets r.timing.markA then ({ r with output := r.shotLevel, state := .done }, [.markA, .done])
    else (r, []) := by
  rcases hk with hk | hk
  · rw [compare_setAt hk, Record.shotLevel, hk]
    rfl
  · rw [compare_clearAt hk, Record.shotLevel, hk]
    rfl

/-- R45: SET_AT and CLEAR_AT over a run: the output changes at the tick at counter A, and the record is DONE from then
on. -/
theorem shot_after (hst : r.staged = none) (hc : r.cue = none) (hk : r.kind = .setAt ∨ r.kind = .clearAt)
    (ha : r.timing.markA < r.timing.period) (n : Nat) :
    r.SameRun (r.after n) ∧
      (r.after n).state = (if n < r.timing.markA.toNat then .running else .done) ∧
      (r.after n).counter.toNat = min n r.timing.markA.toNat ∧
      (r.after n).output = if n < r.timing.markA.toNat then !r.shotLevel else r.shotLevel := by
  have hlt : r.timing.markA.toNat < r.timing.period.toNat := ha
  have hkind : r.kind ≠ .level := by rcases hk with hk | hk <;> rw [hk] <;> decide
  have hcompare {y : Record} {c : Nat} (hy : r.Reaches y c) (hle : c ≤ r.timing.markA.toNat)
      (ho : y.output = !r.shotLevel) : r.SameRun y.compare.1 ∧
      y.compare.1.state = (if c < r.timing.markA.toNat then .running else .done) ∧
      y.compare.1.counter.toNat = min c r.timing.markA.toNat ∧
      y.compare.1.output = if c < r.timing.markA.toNat then !r.shotLevel else r.shotLevel := by
    refine ⟨hy.run.compare, ?_⟩
    have hshot : y.shotLevel = r.shotLevel := by rw [Record.shotLevel, hy.run.kind, Record.shotLevel]
    rw [compare_shot (hy.run.kind ▸ hk), hy.run.timing, Nat.min_eq_left hle, hshot]
    by_cases hm : c = r.timing.markA.toNat
    · rw [if_pos (hy.meets.2 ⟨hm, hlt⟩), if_neg (by omega), if_neg (by omega)]
      exact ⟨rfl, hy.counter, rfl⟩
    · rw [if_neg fun h => hm (hy.meets.1 h).1, if_pos (by omega), if_pos (by omega)]
      exact ⟨hy.state, hy.counter, ho⟩
  induction n with
  | zero =>
    obtain ⟨y, hy, _, ho, he⟩ := begin_reaches hst hc
    rw [he]
    refine hcompare hy (Nat.zero_le _) (ho.trans ?_)
    rcases hk with hk | hk <;> rw [Record.startLevel, Record.shotLevel, hk] <;> rfl
  | succ n ih =>
    obtain ⟨hrun, hs, hcount, ho⟩ := ih
    rw [after_succ]
    by_cases hn : n < r.timing.markA.toNat
    · rw [if_pos hn] at hs ho
      obtain ⟨y, hy, _, ho', he⟩ := tick_reaches hkind ⟨hrun, hs, hcount.trans (Nat.min_eq_left (Nat.le_of_lt hn))⟩
      rw [if_pos (by omega)] at hy
      rw [he]
      exact hcompare hy hn (ho'.trans ho)
    · rw [if_neg hn] at hs ho
      rw [tick_still hrun (by rw [hs]; decide), if_neg (by omega), if_neg (by omega), hs, ho, hcount]
      exact ⟨hrun, rfl, by omega, rfl⟩

/-! ## Pulse kinds -/

/-- R47, R48: the compare of a pulse kind at a counter value, from the phase and the output that the earlier values
left: high from counter A to counter B, and WAIT_B meanwhile. -/
theorem pulse_compare (hk : r.kind = .pulseOnce ∧ r.rearm = false ∨ r.kind = .pulseTrain)
    (hab : r.timing.markA.toNat < r.timing.markB.toNat) (hb : r.timing.markB.toNat < r.timing.period.toNat)
    (hy : r.Reaches y c)
    (hph : y.phase = if r.timing.markA.toNat < c ∧ c ≤ r.timing.markB.toNat then .waitB else .waitA)
    (ho : y.output = decide (r.timing.markA.toNat < c ∧ c ≤ r.timing.markB.toNat)) :
    y.compare.1.output = decide (r.timing.markA.toNat ≤ c ∧ c < r.timing.markB.toNat) ∧
      y.compare.1.phase = (if r.timing.markA.toNat ≤ c ∧ c < r.timing.markB.toNat then .waitB else .waitA) ∧
      y.compare.1.counter.toNat = c ∧
      y.compare.1.state = if r.kind = .pulseOnce ∧ c = r.timing.markB.toNat then .done else .running := by
  have hA : y.meets y.timing.markA = true ↔ c = r.timing.markA.toNat := by
    rw [hy.run.timing, hy.meets]
    exact ⟨fun h => h.1, fun h => ⟨h, by omega⟩⟩
  have hB : y.meets y.timing.markB = true ↔ c = r.timing.markB.toNat := by
    rw [hy.run.timing, hy.meets]
    exact ⟨fun h => h.1, fun h => ⟨h, hb⟩⟩
  have hkind : y.kind = .pulseOnce ∨ y.kind = .pulseTrain := hy.run.kind ▸ hk.imp_left And.left
  by_cases hwait : r.timing.markA.toNat < c ∧ c ≤ r.timing.markB.toNat
  · rw [if_pos hwait] at hph
    rw [decide_eq_true hwait] at ho
    by_cases hm : c = r.timing.markB.toNat
    · have hlow : ¬ (r.timing.markA.toNat ≤ c ∧ c < r.timing.markB.toNat) := by omega
      rw [decide_eq_false hlow, if_neg hlow]
      rcases hk with ⟨hk, hr⟩ | hk
      · have hr : ¬ y.rearm = true := by rw [hy.run.rearm, hr]; exact Bool.false_ne_true
        rw [compare_pulseOnce (hy.run.kind.trans hk) hph, if_pos (hB.2 hm), if_neg hr, if_pos ⟨hk, hm⟩]
        exact ⟨rfl, rfl, hy.counter, rfl⟩
      · rw [compare_pulseTrain (hy.run.kind.trans hk) hph, if_pos (hB.2 hm), if_neg (by rw [hk]; simp)]
        exact ⟨rfl, rfl, hy.counter, hy.state⟩
    · have hhigh : r.timing.markA.toNat ≤ c ∧ c < r.timing.markB.toNat := by omega
      have he : y.compare = (y, []) := by
        rcases hkind with hk' | hk'
        · rw [compare_pulseOnce hk' hph, if_neg (hB.not.2 hm)]
        · rw [compare_pulseTrain hk' hph, if_neg (hB.not.2 hm)]
      rw [he, decide_eq_true hhigh, if_pos hhigh, if_neg fun h => hm h.2]
      exact ⟨ho, hph, hy.counter, hy.state⟩
  · rw [if_neg hwait] at hph
    rw [decide_eq_false hwait] at ho
    rw [compare_waitA hkind hph]
    by_cases hm : c = r.timing.markA.toNat
    · have hhigh : r.timing.markA.toNat ≤ c ∧ c < r.timing.markB.toNat := by omega
      rw [if_pos (hA.2 hm), decide_eq_true hhigh, if_pos hhigh, if_neg (by omega)]
      exact ⟨rfl, rfl, hy.counter, hy.state⟩
    · have hlow : ¬ (r.timing.markA.toNat ≤ c ∧ c < r.timing.markB.toNat) := by omega
      rw [if_neg (hA.not.2 hm), decide_eq_false hlow, if_neg hlow, if_neg (by omega)]
      exact ⟨ho, hph, hy.counter, hy.state⟩

/-- R47: PULSE_ONCE without rearm over a run: high from the tick at counter A to that at counter B, and DONE from then
on. -/
theorem pulseOnce_after (hst : r.staged = none) (hc : r.cue = none) (hk : r.kind = .pulseOnce) (hr : r.rearm = false)
    (hab : r.timing.markA < r.timing.markB) (hb : r.timing.markB < r.timing.period) (n : Nat) :
    r.SameRun (r.after n) ∧
      (r.after n).state = (if n < r.timing.markB.toNat then .running else .done) ∧
      (r.after n).counter.toNat = min n r.timing.markB.toNat ∧
      (r.after n).output = decide (r.timing.markA.toNat ≤ n ∧ n < r.timing.markB.toNat) ∧
      (r.after n).phase = if r.timing.markA.toNat ≤ n ∧ n < r.timing.markB.toNat then .waitB else .waitA := by
  have hab' : r.timing.markA.toNat < r.timing.markB.toNat := hab
  have hb' : r.timing.markB.toNat < r.timing.period.toNat := hb
  have hkind : r.kind ≠ .level := by rw [hk]; decide
  have hcompare {y : Record} {c : Nat} (hy : r.Reaches y c) (hle : c ≤ r.timing.markB.toNat)
      (hph : y.phase = if r.timing.markA.toNat < c then .waitB else .waitA)
      (ho : y.output = decide (r.timing.markA.toNat < c)) : r.SameRun y.compare.1 ∧
      y.compare.1.state = (if c < r.timing.markB.toNat then .running else .done) ∧
      y.compare.1.counter.toNat = min c r.timing.markB.toNat ∧
      y.compare.1.output = decide (r.timing.markA.toNat ≤ c ∧ c < r.timing.markB.toNat) ∧
      y.compare.1.phase = if r.timing.markA.toNat ≤ c ∧ c < r.timing.markB.toNat then .waitB else .waitA := by
    obtain ⟨h1, h2, h3, h4⟩ := pulse_compare (.inl ⟨hk, hr⟩) hab' hb' hy (by simpa only [hle, and_true] using hph)
      (by simpa only [hle, and_true] using ho)
    refine ⟨hy.run.compare, ?_, by omega, h1, h2⟩
    rw [h4]
    by_cases hm : c = r.timing.markB.toNat
    · rw [if_pos ⟨hk, hm⟩, if_neg (by omega)]
    · rw [if_neg fun h => hm h.2, if_pos (by omega)]
  induction n with
  | zero =>
    obtain ⟨y, hy, hph, ho, he⟩ := begin_reaches hst hc
    rw [he]
    refine hcompare hy (Nat.zero_le _) hph (ho.trans ?_)
    rw [Record.startLevel, hk]
    rfl
  | succ n ih =>
    obtain ⟨hrun, hs, hcount, ho, hph⟩ := ih
    rw [after_succ]
    by_cases hn : n < r.timing.markB.toNat
    · rw [if_pos hn] at hs
      obtain ⟨y, hy, hph', ho', he⟩ := tick_reaches hkind ⟨hrun, hs, hcount.trans (Nat.min_eq_left (Nat.le_of_lt hn))⟩
      rw [if_pos (by omega)] at hy
      simp only [hn, and_true, ← Nat.lt_add_one_iff] at ho hph
      rw [he]
      exact hcompare hy hn (hph'.trans hph) (ho'.trans ho)
    · have hout : ¬ (r.timing.markA.toNat ≤ n ∧ n < r.timing.markB.toNat) := by omega
      have hout' : ¬ (r.timing.markA.toNat ≤ n + 1 ∧ n + 1 < r.timing.markB.toNat) := by omega
      rw [if_neg hn] at hs
      rw [tick_still hrun (by rw [hs]; decide), if_neg (by omega), hs, ho, hph, hcount, decide_eq_false hout,
        decide_eq_false hout', if_neg hout, if_neg hout']
      exact ⟨hrun, rfl, by omega, rfl, rfl⟩

/-- Settles O42: each of the three kinds over its run. -/
theorem oneShotOutputsOverARun : Obligations.OneShotOutputsOverARun := by
  unfold Obligations.OneShotOutputsOverARun
  intro r n hst hc x a b
  refine ⟨fun hk ha => ?_, fun hk ha => ?_, fun hk hr hab hb => ?_⟩
  · obtain ⟨_, hs, hcount, ho⟩ := shot_after hst hc (.inl hk) ha n
    refine ⟨ho.trans ?_, hs, hcount⟩
    rw [Record.shotLevel, hk]
    by_cases hn : n < r.timing.markA.toNat
    · rw [if_pos hn]
      exact (decide_eq_false (Nat.not_le.2 hn)).symm
    · rw [if_neg hn]
      exact (decide_eq_true (Nat.le_of_not_lt hn)).symm
  · obtain ⟨_, hs, hcount, ho⟩ := shot_after hst hc (.inr hk) ha n
    refine ⟨ho.trans ?_, hs, hcount⟩
    rw [Record.shotLevel, hk]
    by_cases hn : n < r.timing.markA.toNat
    · rw [if_pos hn]
      exact (decide_eq_true hn).symm
    · rw [if_neg hn]
      exact (decide_eq_false hn).symm
  · obtain ⟨_, hs, hcount, ho, _⟩ := pulseOnce_after hst hc hk hr hab hb n
    exact ⟨ho, hs, hcount⟩

/-! ## Periodic kinds -/

/-- R47: a compare leaves the counter, unless it leaves the record ARMED. -/
theorem compare_counter_of_not_armed (h : r.compare.1.state ≠ .armed) : r.compare.1.counter = r.counter := by
  revert h
  obtain ⟨v, e⟩ | ⟨_, ⟨v, ph, e⟩ | ⟨v, e⟩⟩ | ⟨_, e | e | e⟩ := compare_cases r <;> rw [e] <;> intro h
  case inr.inr.inr.inr => exact absurd rfl h
  all_goals rfl

/-- R37: the counter after one tick more. -/
theorem succ_mod {p : Nat} (hp : 0 < p) (n : Nat) : (n + 1) % p = if n % p + 1 < p then n % p + 1 else 0 := by
  have hlt := Nat.mod_lt n hp
  rw [← Nat.mod_add_mod]
  split
  · next h => exact Nat.mod_eq_of_lt h
  · next h => rw [show n % p + 1 = p by omega, Nat.mod_self]

/-- R37, R38: a periodic record over a run is RUNNING, at its ticks modulo its period; and what holds of the record at
its start, and of each compare if it held before it, holds after every tick. -/
theorem periodic_induction {P : Nat → Record → Prop} (hst : r.staged = none) (hc : r.cue = none)
    (hp : 0 < r.timing.period.toNat) (hk : r.kind.periodic = true)
    (hzero : ∀ y, r.Reaches y 0 → y.phase = .waitA → y.output = r.startLevel → P 0 y.compare.1)
    (hsucc : ∀ n x y, P n x → r.Reaches y ((n + 1) % r.timing.period.toNat) → y.phase = x.phase →
      y.output = x.output → P (n + 1) y.compare.1) (n : Nat) :
    r.Reaches (r.after n) (n % r.timing.period.toNat) ∧ P n (r.after n) := by
  have hkind : r.kind ≠ .level := by
    revert hk
    cases r.kind <;> decide
  have hcompare {y : Record} {c : Nat} (hy : r.Reaches y c) : r.Reaches y.compare.1 c := by
    have hs : y.compare.1.state = .running :=
      (compare_state_of_periodic (hy.run.kind ▸ hk)).trans hy.state
    exact ⟨hy.run.compare, hs, (compare_counter_of_not_armed (by rw [hs]; decide)) ▸ hy.counter⟩
  induction n with
  | zero =>
    obtain ⟨y, hy, hph, ho, he⟩ := begin_reaches hst hc
    rw [he, Nat.zero_mod]
    exact ⟨hcompare hy, hzero y hy hph ho⟩
  | succ n ih =>
    obtain ⟨hx, hP⟩ := ih
    obtain ⟨y, hy, hph, ho, he⟩ := tick_reaches hkind hx
    rw [← succ_mod hp] at hy
    rw [after_succ, he]
    exact ⟨hcompare hy, hsucc n _ y hP hy hph ho⟩

/-- R49: PWM over a run: its output is 1 while the counter is below mark A. -/
theorem pwm_after (hst : r.staged = none) (hc : r.cue = none) (hp : 0 < r.timing.period.toNat) (hk : r.kind = .pwm)
    (n : Nat) : (r.after n).output = decide (n % r.timing.period.toNat < r.timing.markA.toNat) := by
  have hcompare {y : Record} {c : Nat} (hy : r.Reaches y c)
      (ho : c ≠ 0 → y.output = decide (c - 1 < r.timing.markA.toNat)) (hlt : c < r.timing.period.toNat) :
      y.compare.1.output = decide (c < r.timing.markA.toNat) := by
    have hzero : y.counter = 0 ↔ c = 0 := by
      rw [← hy.counter, ← BitVec.toNat_inj]
      rfl
    rw [compare_pwm (hy.run.kind.trans hk), hy.run.timing]
    by_cases h0 : c = 0
    · rw [if_pos (hzero.2 h0), h0]
      have hpos : r.timing.markA ≠ 0 ↔ 0 < r.timing.markA.toNat := by
        rw [Nat.pos_iff_ne_zero, ne_eq, ne_eq, ← BitVec.toNat_inj]
        rfl
      exact (Bool.eq_iff_iff).2 (by rw [bne_iff_ne, decide_eq_true_eq, hpos])
    · rw [if_neg (hzero.not.2 h0)]
      by_cases hm : c = r.timing.markA.toNat
      · rw [if_pos (hy.meets.2 ⟨hm, hm ▸ hlt⟩)]
        exact (decide_eq_false (by omega)).symm
      · rw [if_neg fun h => hm (hy.meets.1 h).1]
        exact (ho h0).trans (decide_eq_decide.2 (by omega))
  refine (periodic_induction (P := fun n x => x.output =
    decide (n % r.timing.period.toNat < r.timing.markA.toNat)) hst hc hp (by rw [hk]; rfl) (fun y hy _ _ => ?_)
    (fun n x y hx hy _ ho => ?_) n).2
  · rw [Nat.zero_mod]
    exact hcompare hy (fun h => absurd rfl h) hp
  · refine hcompare hy (fun h => ho.trans (hx.trans ?_)) (Nat.mod_lt _ hp)
    have hs := succ_mod hp n
    split at hs
    · rw [hs]
      rfl
    · exact absurd hs h

/-- R48: PULSE_TRAIN over a run: high from counter A to counter B of every period. -/
theorem pulseTrain_after (hst : r.staged = none) (hc : r.cue = none) (hp : 0 < r.timing.period.toNat)
    (hk : r.kind = .pulseTrain) (hab : r.timing.markA.toNat < r.timing.markB.toNat)
    (hb : r.timing.markB.toNat < r.timing.period.toNat) (n : Nat) :
    (r.after n).output = decide (r.timing.markA.toNat ≤ n % r.timing.period.toNat ∧
      n % r.timing.period.toNat < r.timing.markB.toNat) := by
  refine (periodic_induction (P := fun n x =>
    x.output = decide (r.timing.markA.toNat ≤ n % r.timing.period.toNat ∧
        n % r.timing.period.toNat < r.timing.markB.toNat) ∧
      x.phase = if r.timing.markA.toNat ≤ n % r.timing.period.toNat ∧
        n % r.timing.period.toNat < r.timing.markB.toNat then .waitB else .waitA)
    hst hc hp (by rw [hk]; rfl) (fun y hy hph ho => ?_) (fun n x y hx hy hph ho => ?_) n).2.1
  · rw [Nat.zero_mod]
    have hno : ¬ (r.timing.markA.toNat < 0 ∧ 0 ≤ r.timing.markB.toNat) := by omega
    obtain ⟨h1, h2, _⟩ := pulse_compare (.inr hk) hab hb hy (hph.trans (if_neg hno).symm)
      (ho.trans (by simp only [Record.startLevel, hk, hno, decide_false]))
    exact ⟨h1, h2⟩
  · have hs := succ_mod hp n
    have hlt := Nat.mod_lt n hp
    have hprev : (r.timing.markA.toNat ≤ n % r.timing.period.toNat ∧
          n % r.timing.period.toNat < r.timing.markB.toNat) ↔
        (r.timing.markA.toNat < (n + 1) % r.timing.period.toNat ∧
          (n + 1) % r.timing.period.toNat ≤ r.timing.markB.toNat) := by
      split at hs <;> omega
    simp only [hprev] at hx
    obtain ⟨h1, h2, _⟩ := pulse_compare (.inr hk) hab hb hy (hph.trans hx.2) (ho.trans hx.1)
    exact ⟨h1, h2⟩

/-- R46: the number of times that counter A has come, one tick later. -/
theorem toggles_succ {p a : Nat} (hp : 0 < p) (ha : a < p) (n : Nat) :
    (n + 1 + p - a) / p = (n + p - a) / p + if (n + 1) % p = a then 1 else 0 := by
  have e : n + 1 + p - a = (n + p - a) + 1 := by omega
  have hd : p ∣ n + p - a + 1 ↔ (n + 1) % p = a := by
    have hmod := Nat.mod_lt (n + 1) hp
    have hsplit : n + p - a + 1 = p * ((n + 1) / p) + ((n + 1) % p + p - a) := by
      have := Nat.div_add_mod (n + 1) p
      omega
    rw [hsplit, Nat.dvd_add_right (Nat.dvd_mul_right ..)]
    constructor
    · rintro ⟨k, hk⟩
      match k, hk with
      | 0, hk => omega
      | 1, hk => omega
      | k + 2, hk =>
        rw [Nat.mul_add] at hk
        omega
    · intro h
      exact ⟨1, by omega⟩
  rw [e, Nat.succ_div]
  simp only [hd]

/-- R46: TOGGLE_AT over a run: its level, inverted once at each tick at counter A. -/
theorem toggleAt_after (hst : r.staged = none) (hc : r.cue = none) (hp : 0 < r.timing.period.toNat)
    (hk : r.kind = .toggleAt) (n : Nat) :
    (r.timing.markA.toNat < r.timing.period.toNat → (r.after n).output =
      (r.level ^^ decide ((n + r.timing.period.toNat - r.timing.markA.toNat) / r.timing.period.toNat % 2 = 1))) ∧
    (r.timing.period.toNat ≤ r.timing.markA.toNat → (r.after n).output = r.level) := by
  have hcompare {y : Record} {c : Nat} (hy : r.Reaches y c) : y.compare.1.output =
      (y.output ^^ decide (c = r.timing.markA.toNat ∧ r.timing.markA.toNat < r.timing.period.toNat)) := by
    rw [compare_toggleAt (hy.run.kind.trans hk), hy.run.timing]
    by_cases hm : c = r.timing.markA.toNat ∧ r.timing.markA.toNat < r.timing.period.toNat
    · rw [if_pos (hy.meets.2 hm), decide_eq_true hm, Bool.xor_true]
    · rw [if_neg (hy.meets.not.2 hm), decide_eq_false hm, Bool.xor_false]
  have hstart : r.startLevel = r.level := by simp only [Record.startLevel, hk]
  have hperiodic : r.kind.periodic = true := by rw [hk]; rfl
  refine ⟨fun ha => ?_, fun ha => ?_⟩
  · refine (periodic_induction (P := fun n x => x.output =
      (r.level ^^ decide ((n + r.timing.period.toNat - r.timing.markA.toNat) / r.timing.period.toNat % 2 = 1)))
      hst hc hp hperiodic (fun y hy _ ho => ?_) (fun n x y hx hy _ ho => ?_) n).2
    · rw [hcompare hy, ho, hstart]
      refine congrArg (r.level ^^ ·) (decide_eq_decide.2 ?_)
      by_cases h0 : 0 = r.timing.markA.toNat
      · simp only [← h0, Nat.zero_add, Nat.sub_zero, Nat.div_self hp, hp, and_self]
      · rw [Nat.div_eq_of_lt (by omega)]
        simp [h0]
    · rw [hcompare hy, ho, hx, toggles_succ hp ha, Bool.xor_assoc]
      refine congrArg (r.level ^^ ·) ?_
      simp only [ha, and_true]
      split
      · next hm =>
        rw [decide_eq_true hm, Bool.xor_true, ← decide_not]
        exact decide_eq_decide.2 (by omega)
      · next hm => rw [decide_eq_false hm, Bool.xor_false, Nat.add_zero]
  · refine (periodic_induction (P := fun _ x => x.output = r.level) hst hc hp hperiodic (fun y hy _ ho => ?_)
      (fun n x y hx hy _ ho => ?_) n).2
    · rw [hcompare hy, ho, hstart, decide_eq_false fun h => Nat.not_lt.2 ha h.2, Bool.xor_false]
    · rw [hcompare hy, ho, hx, decide_eq_false fun h => Nat.not_lt.2 ha h.2, Bool.xor_false]

/-- Settles O43: each of the three kinds over its run. -/
theorem periodicOutputsOverARun : Obligations.PeriodicOutputsOverARun := by
  unfold Obligations.PeriodicOutputsOverARun
  intro r n hst hc hp hk x period a b
  have hp : 0 < r.timing.period.toNat := Nat.pos_of_ne_zero fun h => hp (BitVec.eq_of_toNat_eq h)
  obtain ⟨hx, _⟩ := periodic_induction (P := fun _ _ => True) hst hc hp hk (fun _ _ _ _ => trivial)
    (fun _ _ _ _ _ _ _ => trivial) n
  exact ⟨hx.state, hx.run.timing, hx.counter, fun hk => pwm_after hst hc hp hk n,
    fun hk hab hb => pulseTrain_after hst hc hp hk hab hb n, fun hk => (toggleAt_after hst hc hp hk n).1,
    fun hk => (toggleAt_after hst hc hp hk n).2⟩

end Sys2Proof.Machine
end

section
/-! PROOFS. CREATE (R3, R6, R12, R13). -/

namespace Sys2Proof.Machine

variable {s : State} {a : Agent} {q : Byte} {p : List Byte} {x : NewRecord} {i : SlotIx}

/-! ## The fields -/

/-- R12: the parameters of a CREATE that asks for a record. -/
def NewRecord.params (x : NewRecord) : List Byte :=
  [toByte x.kind.code, toByte x.base.val] ++ wordBytes x.timing.period.toNat ++
    wordBytes x.timing.markA.toNat ++ wordBytes x.timing.markB.toNat ++
    [toByte x.level.toNat, toByte x.invert.toNat, toByte x.rearm.toNat,
      match x.pin with | some p => toByte p.val | none => 0xFF, x.tag, toByte x.lapse.code]

/-- R12: the conditions between the fields of a CREATE. -/
structure NewRecord.Fits (x : NewRecord) : Prop where
  period : x.kind ≠ .level → x.timing.period ≠ 0
  untimed : x.kind = .level → x.timing.period = 0 ∧ x.timing.markA = 0
  markB : x.kind ≠ .pulseOnce → x.kind ≠ .pulseTrain → x.timing.markB = 0
  level : x.kind ≠ .level → x.kind ≠ .toggleAt → x.level = false
  rearm : x.kind ≠ .pulseOnce → x.rearm = false

/-- R12: the fields of CREATE are read back. -/
theorem createFields_params (hx : x.Fits) : createFields x.params = .ok x := by
  have hword (w : Word) : BitVec.ofNat 16 w.toNat = w := BitVec.ofNat_toNat 16 w
  have h0 : byteAt x.params 0 = toByte x.kind.code := rfl
  have h1 : byteAt x.params 1 = toByte x.base.val := rfl
  have h2 : wordAt x.params 2 = x.timing.period := (wordAt_of_bytes rfl rfl).trans (hword _)
  have h4 : wordAt x.params 4 = x.timing.markA := (wordAt_of_bytes rfl rfl).trans (hword _)
  have h6 : wordAt x.params 6 = x.timing.markB := (wordAt_of_bytes rfl rfl).trans (hword _)
  have h8 : byteAt x.params 8 = toByte x.level.toNat := rfl
  have h9 : byteAt x.params 9 = toByte x.invert.toNat := rfl
  have h10 : byteAt x.params 10 = toByte x.rearm.toNat := rfl
  have h11 : pinOrNone (byteAt x.params 11) = some x.pin := by
    have hp : byteAt x.params 11 = match x.pin with | some p => toByte p.val | none => 0xFF := rfl
    rw [hp]
    cases x.pin with
    | none => rfl
    | some p => exact pinOrNone_toByte p
  have h12 : byteAt x.params 12 = x.tag := rfl
  have h13 : byteAt x.params 13 = toByte x.lapse.code := rfl
  have htiming : (if x.kind.timed then x.timing.period != 0
      else x.timing.period == 0 && x.timing.markA == 0) = true := by
    by_cases hk : x.kind = .level
    · rw [if_neg (timed_iff.not.2 (not_not.2 hk)), (hx.untimed hk).1, (hx.untimed hk).2]
      rfl
    · rw [if_pos (timed_iff.2 hk)]
      exact bne_iff_ne.2 (hx.period hk)
  have hmark : (x.kind.hasMarkB || x.timing.markB == 0) = true := by
    cases h : x.kind.hasMarkB with
    | true => rfl
    | false => exact beq_iff_eq.2 (hx.markB (fun e => by rw [e] at h; cases h) (fun e => by rw [e] at h; cases h))
  have hlevel : (x.kind.hasLevel || !x.level) = true := by
    cases h : x.kind.hasLevel with
    | true => rfl
    | false => rw [hx.level (fun e => by rw [e] at h; cases h) (fun e => by rw [e] at h; cases h)]; rfl
  have hrearm : (x.kind == .pulseOnce || !x.rearm) = true := by
    by_cases h : x.kind = .pulseOnce
    · rw [h]
      rfl
    · rw [hx.rearm h, Bool.not_false, Bool.or_true]
  simp only [createFields, h0, h1, h2, h4, h6, h8, h9, h10, h11, h12, h13, htiming, hmark, hlevel, hrearm,
    Kind.ofByte_code, baseOfByte_toByte, bitOfByte_toNat, LapseAction.ofByte_code, field_some, require_true, ok_bind,
    pure_ok]

/-- R178: a kind field that names a kind holds its code. -/
theorem Kind.ofByte_some {b : Byte} {k : Kind} (h : Kind.ofByte b = some k) : b.toNat = k.code := by
  unfold Kind.ofByte at h
  split at h <;> cases h <;> assumption

/-- R178: a yes/no field holds 0 or 1. -/
theorem bitOfByte_some {b : Byte} {v : Bool} (h : bitOfByte b = some v) : b.toNat = v.toNat := by
  unfold bitOfByte at h
  split at h <;> cases h <;> assumption

/-- R178: a pin field names a pin, or none as 0xFF. -/
theorem pinOrNone_some {b : Byte} {o : Option Pin} (h : pinOrNone b = some o) : b.toNat < 24 ∨ b.toNat = 255 := by
  unfold pinOrNone at h
  split at h
  · next hb => exact .inr (congrArg BitVec.toNat hb)
  · refine .inl ?_
    by_contra hn
    rw [pinOfNat_none (by omega)] at h
    cases h

/-- R178: a word field is 0 exactly if both its bytes are. -/
theorem wordAt_eq_zero {i : Nat} : wordAt p i = 0 ↔ (byteAt p i).toNat = 0 ∧ (byteAt p (i + 1)).toNat = 0 := by
  rw [← BitVec.toNat_inj, wordAt_toNat]
  show _ = 0 ↔ _
  omega

/-- R12: the ranges of the fields that make a record. -/
theorem createFields_ranges (h : createFields p = .ok x) :
    let b (i : Nat) : Nat := (byteAt p i).toNat
    b 0 ≤ 6 ∧ b 1 ≤ 3 ∧ (b 0 ≠ 0 → ¬ (b 2 = 0 ∧ b 3 = 0)) ∧ (b 0 = 0 → b 2 = 0 ∧ b 3 = 0 ∧ b 4 = 0 ∧ b 5 = 0) ∧
      (b 0 ≠ 4 → b 0 ≠ 5 → b 6 = 0 ∧ b 7 = 0) ∧ b 8 ≤ 1 ∧ (b 0 ≠ 0 → b 0 ≠ 3 → b 8 = 0) ∧ b 9 ≤ 1 ∧ b 10 ≤ 1 ∧
      (b 0 ≠ 4 → b 10 = 0) ∧ (b 11 < 24 ∨ b 11 = 255) ∧ b 13 ≤ 2 := by
  intro b
  simp only [createFields, bind_eq_ok, field_eq_ok, require_eq_ok, pure_ok, Except.ok.injEq] at h
  obtain ⟨k, hk, base, hbase, _, htiming, _, hmark, level, hlevel, _, hlevel', invert, hinvert, rearm, hrearm, _,
    hrearm', pin, hpin, lapse, hlapse, rfl⟩ := h
  have h0 : b 0 = k.code := Kind.ofByte_some hk
  have h1 : b 1 ≤ 3 := by
    by_contra hn
    rw [baseOfByte_none (Nat.lt_of_not_le hn)] at hbase
    cases hbase
  have h8 : b 8 = level.toNat := bitOfByte_some hlevel
  have h9 : b 9 = invert.toNat := bitOfByte_some hinvert
  have h10 : b 10 = rearm.toNat := bitOfByte_some hrearm
  have h13 : b 13 ≤ 2 := by
    by_contra hn
    rw [LapseAction.ofByte_none (Nat.lt_of_not_le hn)] at hlapse
    cases hlapse
  have h2 : wordAt p 2 = 0 ↔ b 2 = 0 ∧ b 3 = 0 := wordAt_eq_zero
  have h4 : wordAt p 4 = 0 ↔ b 4 = 0 ∧ b 5 = 0 := wordAt_eq_zero
  have h6 : wordAt p 6 = 0 ↔ b 6 = 0 ∧ b 7 = 0 := wordAt_eq_zero
  have hle (v : Bool) : v.toNat ≤ 1 := by cases v <;> decide
  rw [h8, h9, h10]
  refine ⟨?_, h1, ?_, ?_, ?_, hle _, ?_, hle _, hle _, ?_, pinOrNone_some hpin, h13⟩ <;> rw [h0]
  · cases k <;> decide
  · intro hc
    have hk : k.timed = true := by
      revert hc
      cases k <;> decide
    rw [hk] at htiming
    exact h2.not.1 (bne_iff_ne.1 htiming)
  · intro hc
    have hk : k.timed = false := by
      revert hc
      cases k <;> decide
    rw [hk] at htiming
    obtain ⟨hp, ha⟩ := Bool.and_eq_true_iff.1 htiming
    obtain ⟨hp2, hp3⟩ := h2.1 (beq_iff_eq.1 hp)
    exact ⟨hp2, hp3, h4.1 (beq_iff_eq.1 ha)⟩
  · intro hc hc'
    have hk : k.hasMarkB = false := by
      revert hc hc'
      cases k <;> decide
    rw [hk, Bool.false_or] at hmark
    exact h6.1 (beq_iff_eq.1 hmark)
  · intro hc hc'
    have hk : k.hasLevel = false := by
      revert hc hc'
      cases k <;> decide
    rw [hk, Bool.false_or] at hlevel'
    cases level
    · rfl
    · cases hlevel'
  · intro hc
    have hk : (k == .pulseOnce) = false := by
      revert hc
      cases k <;> decide
    rw [hk, Bool.false_or] at hrearm'
    cases rearm
    · rfl
    · cases hrearm'

/-- R12: fields that make no record are refused with BAD_VALUE. -/
theorem createBody_badValue (h : ∀ x, createFields p ≠ .ok x) : createBody a p s = .error .badValue := by
  have honly : OnlyBadValue (createFields p) :=
    .bind (.field _) fun _ => .bind (.field _) fun _ => .bind (.require _) fun _ => .bind (.require _) fun _ =>
      .bind (.field _) fun _ => .bind (.require _) fun _ => .bind (.field _) fun _ => .bind (.field _) fun _ =>
      .bind (.require _) fun _ => .bind (.field _) fun _ => .bind (.field _) fun _ => .ok _
  simp only [createBody, honly.error h, error_bind]

/-! ## The slot and the pin -/

/-- R3, R12: CREATE without an EMPTY slot. -/
theorem createBody_noSlot (hx : createFields p = .ok x) (hi : s.emptySlot? = none) :
    createBody a p s = .error .noSlot := by
  simp [createBody, hx, hi]

/-- R12, R13: CREATE in the lowest EMPTY slot, by the conditions of its pin. -/
theorem createBody_eq (hx : createFields p = .ok x) (hi : s.emptySlot? = some i) :
    createBody a p s = s.claimCheck? a x.pin >>= fun _ => .ok (.answered
      ((s.setRecord i (x.record a (s.underForce x.pin))).claimFor x.pin (s.handleAt i))
      (handleBytes (some (s.handleAt i)))) := by
  simp [createBody, hx, hi]

/-- R103: a pin whose role is not OUTPUT. -/
theorem claimCheck_role {k : Pin} (h : s.pins[k].config.role ≠ .output) : s.claimCheck a k = .error .pinBusy :=
  if_pos h

/-- R103: an OUTPUT pin without a grant. -/
theorem claimCheck_grant {k : Pin} (h : s.pins[k].config.role = .output) (hg : s.granted a k = false) :
    s.claimCheck a k = .error .pinDenied :=
  (if_neg (not_not.2 h)).trans (if_pos hg)

/-- R103: an OUTPUT pin that is claimed. -/
theorem claimCheck_claimed {k : Pin} (h : s.pins[k].config.role = .output) (hg : s.granted a k = true)
    (hc : s.pins[k].claim.isSome = true) : s.claimCheck a k = .error .pinBusy :=
  (if_neg (not_not.2 h)).trans ((if_neg (ne_false_of_eq_true hg)).trans (if_pos hc))

/-- R100: a grant of a pin, or the supervisor's. -/
theorem granted_iff {k : Pin} : s.granted a k = true ↔ a = 0 ∨ s.pins[k].grants.getLsbD a.val = true := by
  rw [State.granted, Bool.or_eq_true, beq_iff_eq]

/-- R100: an agent without a grant. -/
theorem granted_false {k : Pin} (h0 : a ≠ 0) (hg : s.pins[k].grants.getLsbD a.val = false) :
    s.granted a k = false := by
  rw [State.granted, hg, beq_eq_false_iff_ne.2 h0]
  rfl

/-- Settles O26: the ranges (`createFields_ranges`), then the slot, and then the pin. -/
theorem createRefusedBySlotOrPin : Obligations.CreateRefusedBySlotOrPin := by
  unfold Obligations.CreateRefusedBySlotOrPin
  intro s a q
  refine ⟨fun p hl hc => ?range, fun kind base t level invert rearm pin tag lapse hc hp hu hm hv hr => ?fields⟩
  case range =>
    intro b hb
    refine carryOut_refuses hc (beq_iff_eq.2 hl) (createBody_badValue fun x hx => ?_)
    obtain ⟨h0, h1, h2, h3, h4, h5, h6, h7, h8, h9, h10, h11⟩ := createFields_ranges hx
    have hb' (i : Nat) : b i = (byteAt p i).toNat := rfl
    simp only [← hb'] at h0 h1 h2 h3 h4 h5 h6 h7 h8 h9 h10 h11
    omega
  case fields =>
    let x : NewRecord := { kind, base, timing := t, level, invert, rearm, pin, tag, lapse }
    have hx : createFields x.params = .ok x := createFields_params ⟨hp, hu, hm, hv, hr⟩
    refine ⟨fun hfull => ?_, fun i k hi hpin => ?_⟩
    · have hn : s.emptySlot? = none := List.find?_eq_none.2 fun i _ => by
        rw [Option.isNone_eq_false_iff.2 (hfull i)]
        exact Bool.false_ne_true
      exact carryOut_refuses (p := x.params) hc rfl (createBody_noSlot hx hn)
    · have hi' : ∃ i, s.emptySlot? = some i := Option.isSome_iff_exists.1
        (List.find?_isSome.2 ⟨i, List.mem_finRange i, by rw [hi]; rfl⟩)
      obtain ⟨i, hi'⟩ := hi'
      have hbody {st : Status} (h : s.claimCheck a k = .error st) : createBody a x.params s = .error st := by
        have h' : s.claimCheck? a x.pin = .error st := by
          have hxp : x.pin = some k := hpin
          rw [hxp]
          exact h
        rw [createBody_eq hx hi', h', error_bind]
      exact ⟨fun hrole => carryOut_refuses (p := x.params) hc rfl (hbody (claimCheck_role hrole)),
        fun hrole h0 hg => carryOut_refuses (p := x.params) hc rfl
          (hbody (claimCheck_grant hrole (granted_false h0 hg))),
        fun hrole hg hcl => carryOut_refuses (p := x.params) hc rfl
          (hbody (claimCheck_claimed hrole (granted_iff.2 hg) hcl))⟩

/-- R13: the held mark of a new record. -/
theorem underForce_held (s : State) (pin : Option Pin) : (if s.underForce pin then Held.held else .clear) =
    match pin with
    | some p => (match s.pins[p].config.group with
      | some g => if (s.group g).state = .clear then .clear else .held
      | none => .clear)
    | none => .clear := by
  cases pin with
  | none => rfl
  | some p =>
    refine (?_ : (if s.pinForced p = true then Held.held else .clear) = _)
    dsimp only
    cases hg : s.pins[p].config.group with
    | none =>
      refine if_neg fun hf => ?_
      obtain ⟨g, hg', _⟩ := pinForced_iff.1 hf
      cases hg.symm.trans hg'
    | some g =>
      by_cases hc : (s.group g).state = .clear
      · refine (if_neg fun hf => ?_).trans (if_pos hc).symm
        obtain ⟨g', hg', hn⟩ := pinForced_iff.1 hf
        cases hg.symm.trans hg'
        exact hn hc
      · exact (if_pos (pinForced_iff.2 ⟨g, hg, hc⟩)).trans (if_neg hc).symm

/-- Settles O25: the fields are read back (`createFields_params`), and the body makes the record and the claim
(`createBody_eq`). -/
theorem createMakesIdleRecord : Obligations.CreateMakesIdleRecord := by
  unfold Obligations.CreateMakesIdleRecord
  intro s a q i kind base t level invert rearm pin tag lapse hc hp hu hm hv hre hi hlow hpin r h
  let x : NewRecord := { kind, base, timing := t, level, invert, rearm, pin, tag, lapse }
  have hx : createFields x.params = .ok x := createFields_params ⟨hp, hu, hm, hv, hre⟩
  have hslot : s.emptySlot? = some i := find?_finRange.2 ⟨by rw [hi]; rfl, fun j hj =>
    Option.isNone_eq_false_iff.2 (hlow j hj)⟩
  have hcheck : s.claimCheck? a x.pin = .ok () := by
    cases hp : pin with
    | none => simp only [x, hp, State.claimCheck?]
    | some p =>
      obtain ⟨hrole, hg, hcl⟩ := hpin p hp
      simp only [x, hp, State.claimCheck?]
      exact claimCheck_eq_ok.2 ⟨hrole, granted_iff.2 hg, hcl⟩
  have hrec : x.record a (s.underForce x.pin) = r := by
    cases kind <;> exact congrArg (fun c : Held => ({ r with held := c } : Record)) (underForce_held s pin)
  have hb := createBody_eq (a := a) hx hslot
  rw [hcheck, ok_bind, hrec] at hb
  refine (carryOut_answers (p := x.params) hc rfl hb).trans ?_
  rw [handleBytes_eq]
  cases pin <;> rfl

end Sys2Proof.Machine
end

section
/-! PROOFS. MOVE (R105 to R107) and CONFIG_PIN (R96 to R99). -/

namespace Sys2Proof.Machine

variable {s : State} {a : Agent} {q : Byte} {p : List Byte} {r : Record} {h : Handle}

/-! ## MOVE -/

/-- R178: a pin field of neither a pin nor 0xFF. -/
theorem pinOrNone_none_of_range {x : Byte} (h : 23 < x.toNat) (hx : x ≠ 0xFF) : pinOrNone x = none := by
  unfold pinOrNone
  rw [if_neg hx, pinOfNat_none h]
  rfl

/-- R178: a pin field of a request, read back. -/
theorem pinOrNone_pin (o : Option Pin) : pinOrNone (match o with | some p => toByte p.val | none => 0xFF) = some o := by
  cases o with
  | none => rfl
  | some p => exact pinOrNone_toByte p

/-- R105: MOVE with a pin field out of range. -/
theorem moveBody_badValue {x : Byte} (hx : pinOrNone x = none) :
    moveBody a (wordBytes h.value ++ [x]) s = .error .badValue := by
  simp only [moveBody, ofWord_wordBytes, byteAt_second, hx, field_some, field_none, ok_bind, error_bind]

/-- R105, R106: MOVE of a current record by the supervisor or its owner, by the pin conditions. -/
theorem moveBody_eq {x : Byte} {o : Option Pin} (hx : pinOrNone x = some o) (hr : s.record? h = some r)
    (ho : a = 0 ∨ r.owner = a) : moveBody a (wordBytes h.value ++ [x]) s =
      if o = r.pin then .ok (.answered s [])
      else s.moveCheck r.owner o >>= fun _ => .ok (.answered (s.moved h r o) []) := by
  simp only [moveBody, ofWord_wordBytes, byteAt_second, hx, field_some, ok_bind, ownRecord_ok hr ho, pure_ok]

/-- R99: the held re-evaluation, with its notice offered. -/
theorem settled_reevaluate (r : Record) (before after : Bool) : settled (r.reevaluate before after) =
    if before = false ∧ after = true then
      (if r.held = .clear then ({ r with held := .held } : Record).offer .held else { r with held := .held })
    else if before = true ∧ after = false ∧ r.held = .held then
      (if r.state = .running ∧ r.kind.periodic = true then { r with held := .owed }
        else ({ r with held := .clear } : Record).offer .released)
    else r := by
  cases before <;> cases after
  · rfl
  · exact (settled_takeHold r).trans (if_pos ⟨rfl, rfl⟩).symm
  · refine (settled_oweRelease r).trans ?_
    simp only [Bool.true_eq_false, false_and, true_and, if_false]
  · rfl

/-- Settles O47: the body by its pin conditions (`moveBody_eq`, `claimCheck_role` and those after it), the claims
(`moved_pins`) and the held mark (`settled_reevaluate`). -/
theorem moveChangesClaimAndHeldMark : Obligations.MoveChangesClaimAndHeldMark := by
  unfold Obligations.MoveChangesClaimAndHeldMark
  intro s a q h
  refine ⟨fun x hx hn hc => carryOut_refuses hc rfl (moveBody_badValue (pinOrNone_none_of_range hx hn)),
    fun r pin hr ho hc => ?_⟩
  have hbody := moveBody_eq (pinOrNone_pin pin) hr ho
  refine ⟨fun hp => carryOut_answers hc rfl (hbody.trans (if_pos hp)), fun p hp hn => ?_, fun hn hok => ?_⟩
  · have hrefuse {st : Status} (hst : s.claimCheck r.owner p = .error st) :
        exec .move s = s.refuses a .move q st := by
      refine carryOut_refuses hc rfl (hbody.trans ((if_neg hn).trans ?_))
      have hst' : s.moveCheck r.owner pin = .error st := by
        rw [hp]
        exact hst
      rw [hst', error_bind]
    exact ⟨fun hrole => hrefuse (claimCheck_role hrole), fun hrole hg => hrefuse (claimCheck_grant hrole hg),
      fun hrole hg hcl => hrefuse (claimCheck_claimed hrole hg hcl)⟩
  · intro before after x x'
    have hcheck : s.moveCheck r.owner pin = .ok () := by
      cases pin with
      | none => rfl
      | some p => exact claimCheck_eq_ok.2 (hok p rfl)
    have hx' : settled (x.reevaluate (s.underForce r.pin) (s.underForce pin)) = x' := by
      have hb : s.underForce r.pin = before := rfl
      have ha : s.underForce pin = after := rfl
      rw [hb, ha, settled_reevaluate]
    have hpins : ((s.setClaim? r.pin none).setClaim? pin (some h)).pins = tab fun k => { s.pins[k] with
        claim := if pin = some k then some h else if r.pin = some k then none else s.pins[k].claim } :=
      table_ext fun k => by
        have hk := moved_pins s h r pin k
        rw [moved_eq] at hk
        rw [tab_get_fin]
        exact hk
    refine (carryOut_answers hc rfl (hbody.trans ((if_neg hn).trans (by rw [hcheck, ok_bind])))).trans ?_
    rw [moved_eq, hx', hpins]

/-! ## CONFIG_PIN -/

/-- R178: the range of a role field. -/
theorem Role.ofByte_le {x : Byte} {v : Role} (h : Role.ofByte x = some v) : x.toNat ≤ 3 := by
  unfold Role.ofByte at h
  split at h <;> cases h <;> omega

/-- R178: the range of a drive field. -/
theorem Drive.ofByte_le {x : Byte} {v : Drive} (h : Drive.ofByte x = some v) : x.toNat ≤ 1 := by
  unfold Drive.ofByte at h
  split at h <;> cases h <;> omega

/-- R178: the range of a pull field. -/
theorem Pull.ofByte_le {x : Byte} {v : Pull} (h : Pull.ofByte x = some v) : x.toNat ≤ 2 := by
  unfold Pull.ofByte at h
  split at h <;> cases h <;> omega

/-- R178: the range of an idle level or safe action field. -/
theorem PinLevel.ofByte_le {x : Byte} {v : PinLevel} (h : PinLevel.ofByte x = some v) : x.toNat ≤ 2 := by
  unfold PinLevel.ofByte at h
  split at h <;> cases h <;> omega

/-- R178: the range of a pin's group field. -/
theorem pinGroupOfByte_le {x : Byte} {v : Option Group} (h : pinGroupOfByte x = some v) : x.toNat ≤ 2 := by
  unfold pinGroupOfByte at h
  split at h <;> cases h <;> omega

/-- R96: the ranges of the fields that make a configuration. -/
theorem configFields_ranges {y : Pin × PinConfig} (h : configFields p = .ok y) :
    (byteAt p 0).toNat ≤ 23 ∧ (byteAt p 1).toNat ≤ 3 ∧ (byteAt p 2).toNat ≤ 1 ∧ (byteAt p 3).toNat ≤ 2 ∧
      (byteAt p 4).toNat ≤ 2 ∧ (byteAt p 5).toNat ≤ 2 ∧ (byteAt p 6).toNat ≤ 2 := by
  simp only [configFields, bind_eq_ok, field_eq_ok] at h
  obtain ⟨k, hk, _, hrole, _, hdrive, _, hpull, _, hidle, _, hsafe, _, hgroup, _⟩ := h
  refine ⟨?_, Role.ofByte_le hrole, Drive.ofByte_le hdrive, Pull.ofByte_le hpull, PinLevel.ofByte_le hidle,
    PinLevel.ofByte_le hsafe, pinGroupOfByte_le hgroup⟩
  by_contra hn
  rw [pinOfNat_none (Nat.lt_of_not_le hn)] at hk
  cases hk

/-- R96: CONFIG_PIN with fields that make no configuration. -/
theorem configPinBody_badValue (h : ∀ y, configFields p ≠ .ok y) : configPinBody a p s = .error .badValue := by
  have honly : OnlyBadValue (configFields p) :=
    .bind (.field _) fun _ => .bind (.field _) fun _ => .bind (.field _) fun _ => .bind (.field _) fun _ =>
      .bind (.field _) fun _ => .bind (.field _) fun _ => .bind (.field _) fun _ => .ok _
  simp only [configPinBody, honly.error h, error_bind]

/-- R96: the parameters of a CONFIG_PIN that asks for a configuration. -/
def PinConfig.params (k : Pin) (c : PinConfig) : List Byte :=
  [toByte k.val, toByte c.role.code, toByte c.drive.code, toByte c.pull.code, toByte c.idle.code, toByte c.safe.code,
    toByte (groupCode c.group)]

/-- R96: the fields of CONFIG_PIN are read back. -/
theorem configFields_params (k : Pin) (c : PinConfig) : configFields (c.params k) = .ok (k, c) := by
  have hb : byteAt (c.params k) 0 = toByte k.val ∧ byteAt (c.params k) 1 = toByte c.role.code ∧
      byteAt (c.params k) 2 = toByte c.drive.code ∧ byteAt (c.params k) 3 = toByte c.pull.code ∧
      byteAt (c.params k) 4 = toByte c.idle.code ∧ byteAt (c.params k) 5 = toByte c.safe.code ∧
      byteAt (c.params k) 6 = toByte (groupCode c.group) := ⟨rfl, rfl, rfl, rfl, rfl, rfl, rfl⟩
  obtain ⟨h0, h1, h2, h3, h4, h5, h6⟩ := hb
  simp only [configFields, h0, h1, h2, h3, h4, h5, h6, pinOfNat_toByte, Role.ofByte_code, Drive.ofByte_code,
    Pull.ofByte_code, PinLevel.ofByte_code, pinGroupOfByte_code, field_some, ok_bind, pure_ok]

/-- R96 to R99: CONFIG_PIN with its fields in range. -/
theorem configPinBody_eq (k : Pin) (c : PinConfig) : configPinBody a (c.params k) s =
    require .pinBusy (c.role == s.pins[k].config.role || !s.roleBusy k) >>= fun _ =>
      .ok (.answered (s.configured k c) []) := by
  simp only [configPinBody, configFields_params, ok_bind, pure_ok]

/-- R30, R96: a pin that a base counts. -/
theorem counts_iff {k : Pin} : s.counts k = true ↔ ∃ (b : Base) (d : EdgeDir), s.bases[b].source = .pin k d := by
  rw [State.counts, List.any_eq_true]
  constructor
  · rintro ⟨b, _, hb⟩
    refine ⟨b, ?_⟩
    cases hs : s.bases[b].source with
    | core => rw [hs] at hb; cases hb
    | pin j d =>
      rw [hs] at hb
      exact ⟨d, by rw [beq_iff_eq.1 hb]⟩
  · rintro ⟨b, d, hb⟩
    exact ⟨b, List.mem_finRange b, by rw [hb]; exact beq_iff_eq.2 rfl⟩

/-- R97: CONFIG_PIN of a pin that no current record claims. -/
theorem configured_unclaimed {k : Pin} (c : PinConfig) (h : s.pins[k].claim.bind s.record? = none) :
    s.configured k c = s.setPin k { s.pins[k] with config := c } := by
  unfold State.configured
  cases hc : s.pins[k].claim with
  | none => rfl
  | some j =>
    rw [hc] at h
    have hj : s.record? j = none := h
    simp only [hj]

/-- R98, R99: CONFIG_PIN of a pin that a current record claims. -/
theorem configured_claimed {k : Pin} (c : PinConfig) (hc : s.pins[k].claim = some h) (hr : s.record? h = some r) :
    s.configured k c = (s.setPin k { s.pins[k] with config := c }).setRecord h.slot
      (settled (r.reevaluate (s.pinForced k) ((s.setPin k { s.pins[k] with config := c }).pinForced k))) := by
  simp only [State.configured, hc, hr]

/-- Settles O48: the ranges (`configFields_ranges`), the role in use, and then the new configuration
(`configured_unclaimed`, `configured_claimed`). -/
theorem configPinReplacesConfiguration : Obligations.ConfigPinReplacesConfiguration := by
  unfold Obligations.ConfigPinReplacesConfiguration
  intro s q
  refine ⟨fun pin role drive pull idle safe group hc hout => ?_, fun k c hc => ?_⟩
  · refine carryOut_refuses hc rfl (configPinBody_badValue fun y hy => ?_)
    have hin : pin.toNat ≤ 23 ∧ role.toNat ≤ 3 ∧ drive.toNat ≤ 1 ∧ pull.toNat ≤ 2 ∧ idle.toNat ≤ 2 ∧
      safe.toNat ≤ 2 ∧ group.toNat ≤ 2 := configFields_ranges hy
    omega
  · intro busy t
    have hbusy : s.roleBusy k = true ↔ busy := by
      unfold State.roleBusy
      dsimp only [busy]
      cases s.pins[k].config.role with
      | off => exact iff_of_false Bool.false_ne_true id
      | output => exact Option.isSome_iff_ne_none
      | cueInput => simp
      | countInput => exact counts_iff
    have hbody := configPinBody_eq (s := s) (a := 0) k c
    refine ⟨fun hrole hb => carryOut_refuses (p := c.params k) hc rfl (hbody.trans ?_), fun hok => ?_⟩
    · rw [beq_eq_false_iff_ne.2 hrole, hbusy.2 hb]
      rfl
    · have hreq : (c.role == s.pins[k].config.role || !s.roleBusy k) = true := by
        rcases hok with hrole | hb
        · rw [beq_iff_eq.2 hrole, Bool.true_or]
        · rw [Bool.eq_false_iff.2 (hbusy.not.2 hb), Bool.not_false, Bool.or_true]
      rw [hreq, require_true, ok_bind] at hbody
      exact ⟨fun hn => (carryOut_answers (p := c.params k) hc rfl hbody).trans (by rw [configured_unclaimed c hn]),
        fun h r hcl hr => (carryOut_answers (p := c.params k) hc rfl hbody).trans
          (congrArg (fun t : State => t.answers 0 .configPin q []) (configured_claimed c hcl hr))⟩

end Sys2Proof.Machine
end

section
/-! PROOFS. GRANT_PINS (R101, R178). -/

namespace Sys2Proof.Machine

variable {s : State} {a g : Agent} {q : Byte} {p : List Byte} {es : List (Pin × Bool)}

/-! ## The fields -/

/-- A check made for each of several things refuses with BAD_VALUE alone, if each check does. -/
theorem OnlyBadValue.mapM {α β : Type} {f : α → Except Status β} (hf : ∀ x, OnlyBadValue (f x)) (l : List α) :
    OnlyBadValue (l.mapM f) := by
  induction l with
  | nil => exact .ok _
  | cons x l ih =>
    rw [List.mapM_cons]
    exact .bind (hf x) fun _ => .bind ih fun _ => .ok _

/-- R101: the fields of GRANT_PINS. -/
def grantFields (p : List Byte) : Except Status (Agent × List (Pin × Bool)) := do
  let g ← field (agentOfByte (byteAt p 0))
  require .badValue (g != 0)
  let es ← grantEntries p
  require .badValue (decide (es.map Prod.fst).Nodup)
  return (g, es)

/-- R101: GRANT_PINS from its fields. -/
theorem grantPinsBody_eq : grantPinsBody a p s = grantFields p >>= fun x =>
    require .pinBusy (x.2.all fun e => e.2 || !s.claimsBy x.1 e.1) >>= fun _ =>
      .ok (.answered (x.2.foldl (fun t e => t.setGrant x.1 e) s)
        ((x.2.foldl (fun t e => t.setGrant x.1 e) s).grantBytes x.1)) := by
  simp only [grantPinsBody, grantFields, bind_assoc, pure_ok, ok_bind]

/-- R101: GRANT_PINS with a field out of range. -/
theorem grantPinsBody_badValue (h : ∀ x, grantFields p ≠ .ok x) : grantPinsBody a p s = .error .badValue := by
  have honly : OnlyBadValue (grantFields p) :=
    .bind (.field _) fun _ => .bind (.require _) fun _ => .bind (.mapM (fun _ => .field _) _) fun _ =>
      .bind (.require _) fun _ => .ok _
  rw [grantPinsBody_eq, honly.error h, error_bind]

/-- R178: an entry of GRANT_PINS names a pin by its low bits, with bits 6-5 zero. -/
theorem grantOfByte_some {b : Byte} {e : Pin × Bool} (h : grantOfByte b = some e) :
    e.1.val = b.toNat % 32 ∧ b.toNat / 32 % 4 = 0 := by
  unfold grantOfByte at h
  split at h
  · next hb =>
    obtain ⟨k, hk, rfl⟩ := Option.map_eq_some_iff.1 h
    refine ⟨?_, hb⟩
    unfold pinOfNat at hk
    split at hk <;> cases hk
    rfl
  · cases h

/-- R178: the entries of GRANT_PINS and the bytes they are read from. -/
theorem grantEntries_pins {l : List Byte} (h : (l.mapM fun b => field (grantOfByte b)) = .ok es) :
    (es.map fun e => e.1.val) = (l.map fun b => b.toNat % 32) ∧
      ∀ b ∈ l, b.toNat / 32 % 4 = 0 ∧ b.toNat % 32 < 24 := by
  induction l generalizing es with
  | nil =>
    cases h
    exact ⟨rfl, fun _ hb => by cases hb⟩
  | cons b l ih =>
    simp only [List.mapM_cons, bind_eq_ok, field_eq_ok, pure_ok, Except.ok.injEq] at h
    obtain ⟨e, he, es', hes, rfl⟩ := h
    obtain ⟨hpins, hall⟩ := ih hes
    obtain ⟨hpin, hzero⟩ := grantOfByte_some he
    refine ⟨by rw [List.map_cons, List.map_cons, hpin, hpins], fun b' hb' => ?_⟩
    rcases List.mem_cons.1 hb' with rfl | hb'
    · exact ⟨hzero, hpin ▸ e.1.isLt⟩
    · exact hall b' hb'

/-- R101, R178: the ranges of the fields of GRANT_PINS. -/
theorem grantFields_ranges {agent : Byte} {l : List Byte} {x : Agent × List (Pin × Bool)}
    (h : grantFields (agent :: l) = .ok x) :
    agent ≠ 0 ∧ agent.toNat ≤ 3 ∧ (∀ b ∈ l, b.toNat / 32 % 4 = 0 ∧ b.toNat % 32 < 24) ∧
      (l.map fun b => b.toNat % 32).Nodup := by
  simp only [grantFields, bind_eq_ok, field_eq_ok, require_eq_ok, pure_ok, Except.ok.injEq] at h
  obtain ⟨g, hg, _, h0, es, hes, _, hd, _⟩ := h
  have hg : agentOfByte agent = some g := hg
  obtain ⟨hpins, hall⟩ := grantEntries_pins hes
  refine ⟨?_, ?_, hall, ?_⟩
  · rintro rfl
    cases hg
    cases h0
  · by_contra hn
    rw [agentOfByte_none (Nat.lt_of_not_le hn)] at hg
    cases hg
  · have hval : (es.map fun e => e.1.val) = (es.map Prod.fst).map Fin.val := (List.map_map ..).symm
    have hl : l.map (fun b => b.toNat % 32) = (es.map Prod.fst).map Fin.val := hpins.symm.trans hval
    rw [hl]
    exact (of_decide_eq_true hd).map Fin.val_injective

/-- R101, R178: the parameters of a GRANT_PINS. -/
def grantParams (g : Agent) (es : List (Pin × Bool)) : List Byte :=
  toByte g.val :: es.map fun e => toByte (e.1.val + 128 * e.2.toNat)

/-- R178: the entries of GRANT_PINS are read back. -/
theorem grantEntries_params (g : Agent) (es : List (Pin × Bool)) : grantEntries (grantParams g es) = .ok es := by
  refine (?_ : ((es.map fun e => toByte (e.1.val + 128 * e.2.toNat)).mapM fun b => field (grantOfByte b)) = .ok es)
  induction es with
  | nil => rfl
  | cons e es ih =>
    rw [List.map_cons, List.mapM_cons, ih, grantOfByte_toByte, field_some, ok_bind, ok_bind]
    rfl

/-- R179: the parameters of GRANT_PINS are at least one byte. -/
theorem lengthOk_grantPins (agent : Byte) (l : List Byte) : ReqCode.lengthOk .grantPins (agent :: l) = true :=
  decide_eq_true (p := 1 ≤ l.length + 1) (Nat.le_add_left ..)

/-- R101: the fields of GRANT_PINS are read back. -/
theorem grantFields_params (hg : g ≠ 0) (hd : (es.map Prod.fst).Nodup) :
    grantFields (grantParams g es) = .ok (g, es) := by
  have h0 : byteAt (grantParams g es) 0 = toByte g.val := rfl
  simp only [grantFields, h0, agentOfByte_toByte, grantEntries_params, field_some, ok_bind, bne_iff_ne.2 hg,
    decide_eq_true hd, require_true, pure_ok]

/-! ## The grants -/

/-- R91, R101: one bit of a grant set is replaced. -/
theorem getLsbD_setGrant (x : BitVec 4) (v : Bool) (g : Agent) (k : Nat) :
    (if v then x ||| 1#4 <<< g.val else x &&& ~~~(1#4 <<< g.val)).getLsbD k =
      if k = g.val then v else x.getLsbD k := by
  have hbit : (1#4 <<< g.val).getLsbD k = decide (k = g.val) := by
    rw [BitVec.getLsbD_shiftLeft, BitVec.getLsbD_one, Bool.eq_iff_iff]
    simp only [Bool.and_eq_true, Bool.not_eq_true', decide_eq_true_eq, decide_eq_false_iff_not]
    omega
  cases v with
  | true =>
    rw [if_pos rfl, BitVec.getLsbD_or, hbit]
    by_cases he : k = g.val <;>
      simp only [he, decide_true, decide_false, Bool.or_true, Bool.or_false, if_true, if_false]
  | false =>
    rw [if_neg Bool.false_ne_true, BitVec.getLsbD_and, BitVec.getLsbD_not, hbit]
    by_cases hk : k < 4
    · by_cases he : k = g.val <;> simp [he, hk]
    · have he : k ≠ g.val := fun he => hk (he ▸ g.isLt)
      rw [BitVec.getLsbD_of_ge x k (Nat.le_of_not_lt hk), Bool.false_and, if_neg he]

/-- R101: the state once the grants of an agent for the pins of some entries are as the entries say. -/
structure State.GrantsTo (s : State) (g : Agent) (es : List (Pin × Bool)) (t : State) : Prop where
  frame : t = { s with pins := t.pins }
  entry (k : Pin) : t.pins[k] = { s.pins[k] with grants := t.pins[k].grants }
  others (k : Pin) (n : Nat) : n ≠ g.val → t.pins[k].grants.getLsbD n = s.pins[k].grants.getLsbD n
  named (k : Pin) (v : Bool) : (k, v) ∈ es → t.pins[k].grants.getLsbD g.val = v
  unnamed (k : Pin) : k ∉ es.map Prod.fst → t.pins[k].grants = s.pins[k].grants

/-- R101: the pins once one entry has taken effect. -/
theorem setGrant_pins (s : State) (g : Agent) (e : Pin × Bool) (k : Pin) :
    (s.setGrant g e).pins[k] = if k = e.1 then { s.pins[k] with
      grants := if e.2 then s.pins[k].grants ||| 1#4 <<< g.val else s.pins[k].grants &&& ~~~(1#4 <<< g.val) }
    else s.pins[k] := by
  simp only [State.setGrant, setPin_pins, put_get_fin]
  split
  · next he => rw [he]
  · rfl

/-- R101: the entries take effect one after another, each at a pin of its own. -/
theorem foldl_setGrant (s : State) (g : Agent) (hd : (es.map Prod.fst).Nodup) :
    s.GrantsTo g es (es.foldl (fun t e => t.setGrant g e) s) := by
  induction es generalizing s with
  | nil => exact ⟨rfl, fun _ => rfl, fun _ _ _ => rfl, fun _ _ h => absurd h List.not_mem_nil, fun _ _ => rfl⟩
  | cons e es ih =>
    obtain ⟨hne, hd⟩ := List.nodup_cons.1 hd
    obtain ⟨hframe, hentry, hothers, hnamed, hunnamed⟩ := ih (s.setGrant g e) hd
    rw [List.foldl_cons]
    generalize es.foldl (fun t e => t.setGrant g e) (s.setGrant g e) = t at *
    refine ⟨hframe, fun k => ?_, fun k n hn => ?_, fun k v hv => ?_, fun k hk => ?_⟩
    · refine (hentry k).trans ?_
      rw [setGrant_pins]
      split <;> rfl
    · rw [hothers k n hn, setGrant_pins]
      split
      · exact (getLsbD_setGrant _ _ _ _).trans (if_neg hn)
      · rfl
    · rcases List.mem_cons.1 hv with rfl | hv
      · rw [hunnamed k hne, setGrant_pins, if_pos rfl]
        exact (getLsbD_setGrant _ _ _ _).trans (if_pos rfl)
      · exact hnamed k v hv
    · rw [List.map_cons, List.mem_cons, not_or] at hk
      obtain ⟨hke, hk⟩ := hk
      rw [hunnamed k hk, setGrant_pins, if_neg hke]

/-! ## The data -/

/-- A sum of distinct powers of two has the bits of its terms. -/
theorem testBit_sum_two_pow {n : Nat} (f : Fin n → Bool) :
    ∑ i, (if f i then 2 ^ i.val else 0) < 2 ^ n ∧
      ∀ i : Fin n, (∑ i, if f i then 2 ^ i.val else 0).testBit i.val = f i := by
  induction n with
  | zero => exact ⟨by simp, fun i => i.elim0⟩
  | succ n ih =>
    obtain ⟨hlt, hbit⟩ := ih fun i => f i.castSucc
    rw [Fin.sum_univ_castSucc]
    simp only [Fin.val_castSucc, Fin.val_last] at *
    generalize (∑ i : Fin n, if f i.castSucc = true then 2 ^ i.val else 0) = m at *
    cases hl : f (Fin.last n) with
    | false =>
      refine ⟨by simpa using hlt.trans (Nat.pow_lt_pow_right (by decide) (Nat.lt_succ_self n)), fun i => ?_⟩
      refine Fin.lastCases ?_ (fun i => ?_) i
      · simpa [hl] using Nat.testBit_lt_two_pow hlt
      · simpa using hbit i
    | true =>
      refine ⟨by simp only [if_true, Nat.pow_succ]; omega, fun i => ?_⟩
      refine Fin.lastCases ?_ (fun i => ?_) i
      · simpa [hl, Nat.add_comm m, Nat.testBit_two_pow_add_eq] using Nat.testBit_lt_two_pow hlt
      · simpa [Nat.add_comm m, Nat.testBit_two_pow_add_gt i.isLt] using hbit i

/-- R178: a bit of three bytes that hold a number, low byte first. -/
theorem getLsbD_three_bytes (n : Nat) (k : Pin) :
    (byteAt [toByte n, toByte (n / 256), toByte (n / 65536)] (k.val / 8)).getLsbD (k.val % 8) = n.testBit k.val := by
  have hbyte (i : Nat) (hi : k.val / 8 = i) : (toByte (n / 2 ^ (8 * i))).getLsbD (k.val % 8) = n.testBit k.val := by
    rw [toByte, BitVec.getLsbD_ofNat, decide_eq_true (Nat.mod_lt _ (by decide)), Bool.true_and,
      Nat.testBit_div_two_pow, ← hi, Nat.mod_add_div]
  have hk : k.val / 8 = 0 ∨ k.val / 8 = 1 ∨ k.val / 8 = 2 := by omega
  rcases hk with h | h | h
  · have h0 := hbyte 0 h
    rw [h]
    simpa [byteAt] using h0
  · have h1 := hbyte 1 h
    rw [h]
    exact h1
  · have h2 := hbyte 2 h
    rw [h]
    exact h2

/-- R178: the bits of an agent's grant set. -/
theorem grantBytes_bit (hg : g ≠ 0) (k : Pin) :
    (byteAt (s.grantBytes g) (k.val / 8)).getLsbD (k.val % 8) = s.pins[k].grants.getLsbD g.val := by
  refine (getLsbD_three_bytes _ k).trans ?_
  rw [← Fin.sum_univ_def, (testBit_sum_two_pow fun k => s.granted g k).2 k, State.granted,
    beq_eq_false_iff_ne.2 hg, Bool.false_or]

/-- R101: the agent owns the record that claims the pin. -/
theorem claimsBy_iff {k : Pin} : s.claimsBy g k = true ↔
    ∃ (h : Handle) (r : Record), s.pins[k].claim = some h ∧ s.record? h = some r ∧ r.owner = g := by
  rw [State.claimsBy, Option.any_eq_true]
  simp only [Option.bind_eq_some_iff, beq_iff_eq]
  exact ⟨fun ⟨r, ⟨h, hh, hr⟩, ho⟩ => ⟨h, r, hh, hr, ho⟩, fun ⟨h, r, hh, hr, ho⟩ => ⟨r, ⟨h, hh, hr⟩, ho⟩⟩

/-- Settles O49: the ranges (`grantFields_ranges`), the claims (`claimsBy_iff`), and then the grants
(`foldl_setGrant`) and the data (`grantBytes_bit`). -/
theorem grantPinsIsAllOrNone : Obligations.GrantPinsIsAllOrNone := by
  unfold Obligations.GrantPinsIsAllOrNone
  intro s q
  refine ⟨fun agent l hc hout => ?_, fun g es hg _ hd hc => ?_⟩
  · have hlen : ReqCode.lengthOk .grantPins (agent :: l) = true := lengthOk_grantPins _ _
    refine carryOut_refuses hc hlen (grantPinsBody_badValue fun x hx => ?_)
    obtain ⟨h0, h3, hall, hnd⟩ := grantFields_ranges hx
    rcases hout with rfl | hgt | ⟨b, hb, hbad⟩ | hdup
    · exact h0 rfl
    · exact absurd h3 (Nat.not_le.2 hgt)
    · have := hall b hb
      omega
    · exact hdup hnd
  · intro kept
    have hlen : ReqCode.lengthOk .grantPins (grantParams g es) = true := lengthOk_grantPins _ _
    have hbody := grantPinsBody_eq (a := 0) (s := s) (p := grantParams g es)
    rw [grantFields_params hg hd, ok_bind] at hbody
    have hkept : (es.all fun e => e.2 || !s.claimsBy g e.1) = true ↔ ¬ kept := by
      simp only [kept, List.all_eq_true, Bool.or_eq_true, Bool.not_eq_true', ← claimsBy_iff]
      constructor
      · rintro hall ⟨e, he, hv, hcl⟩
        rcases hall e he with hv' | hcl'
        · exact absurd (hv.symm.trans hv') Bool.false_ne_true
        · exact absurd (hcl'.symm.trans hcl) Bool.false_ne_true
      · intro hn e he
        by_contra hno
        rw [not_or, Bool.not_eq_true, Bool.not_eq_false] at hno
        exact hn ⟨e, he, hno⟩
    refine ⟨fun hk => ?_, fun hk => ?_⟩
    · refine carryOut_refuses (p := grantParams g es) hc hlen (hbody.trans ?_)
      rw [Bool.eq_false_iff.2 (hkept.not.2 (not_not.2 hk)), require_false, error_bind]
    · rw [hkept.2 hk, require_true, ok_bind] at hbody
      obtain ⟨hframe, hentry, hothers, hnamed, hunnamed⟩ := foldl_setGrant s g hd
      exact ⟨_, _, carryOut_answers (p := grantParams g es) hc hlen hbody, hframe,
        fun k => ⟨hentry k, hothers k, hnamed k, hunnamed k⟩, rfl, grantBytes_bit hg⟩

end Sys2Proof.Machine
end

section
/-! PROOFS. A whole transaction at the serial port (R168 to R171, R175, R176). -/

namespace Sys2Proof.Machine

variable {s : State} {a : Agent} {h y : Byte} {rest : List Byte}

/-! ## The header -/

/-- R170: the agent of a header. -/
theorem headerAgent_header (a t : Fin 4) (k : Fin 16) : headerAgent (toByte (64 * a.val + 16 * t.val + k.val)) = a := by
  revert a t k
  decide

/-- R170: the type of a header. -/
theorem headerType_header (a t : Fin 4) (k : Fin 16) :
    headerType (toByte (64 * a.val + 16 * t.val + k.val)) = t.val := by
  revert a t k
  decide

/-! ## The status byte -/

/-- R171: the fields of the status byte. -/
theorem statusByte_layout (c : Fin 4) (response overrun lost crc frame attn : Bool) :
    let b := toByte (c.val + 4 * response.toNat + 8 * overrun.toNat + 16 * lost.toNat + 32 * crc.toNat +
      64 * frame.toNat + 128 * attn.toNat)
    b.toNat % 4 = c.val ∧ b.getLsbD 2 = response ∧ b.getLsbD 3 = overrun ∧ b.getLsbD 4 = lost ∧ b.getLsbD 5 = crc ∧
      b.getLsbD 6 = frame ∧ b.getLsbD 7 = attn := by
  revert c response overrun lost crc frame attn
  decide

/-- R171: the fields of an agent's status byte. -/
theorem statusByte_fields (s : State) (a : Agent) :
    (s.statusByte a).toNat % 4 = s.ports[a].request.code ∧ (s.statusByte a).getLsbD 2 = s.ports[a].response.isSome ∧
      (s.statusByte a).getLsbD 3 = s.ports[a].overrun ∧ (s.statusByte a).getLsbD 4 = s.ports[a].lost ∧
      (s.statusByte a).getLsbD 5 = s.ports[a].crcError ∧ (s.statusByte a).getLsbD 6 = s.ports[a].frameError ∧
      (s.statusByte a).getLsbD 7 = s.attn := by
  have hc : s.ports[a].request.code < 4 := by
    cases s.ports[a].request <;> simp [RequestSlot.code]
  exact statusByte_layout ⟨_, hc⟩ ..

/-- R171: clearing the flags that the status byte shows clears every flag. -/
theorem clearShown_statusByte (s : State) (a : Agent) : s.ports[a].clearShown (s.statusByte a) =
    { s.ports[a] with overrun := false, lost := false, crcError := false, frameError := false } := by
  obtain ⟨_, _, hover, hlost, hcrc, hframe, _⟩ := statusByte_fields s a
  simp only [Port.clearShown, hover, hlost, hcrc, hframe, Bool.and_not_self]

/-! ## What is received and sent -/

/-- R176: the frame that a transaction sends from byte 2 on, and whether it takes the response. -/
def State.sends (s : State) (h : Byte) : List Byte × Bool :=
  if headerType h = 2 then s.fetchChoice (headerAgent h) else ([], false)

/-- R168: the bytes that the part sends from byte 2 on, while it receives `n` bytes. -/
def sentBytes (frame : List Byte) (n : Nat) : List Byte :=
  (List.range n).map fun j => frame.getD j 0

/-- R168: the bits that the part sends after `n` bytes from byte 2 on. -/
def sentBits (frame : List Byte) (n bits : Nat) : List Bool :=
  (List.range bits).map fun j => (frame.getD n 0).getMsbD j

theorem sentBytes_nil (n : Nat) : sentBytes [] n = List.replicate n 0 := by
  simp [sentBytes]

theorem sentBits_nil (n bits : Nat) : sentBits [] n bits = List.replicate bits false := by
  simp [sentBits]

/-- R171, R175, R176: the part after a transaction of agent `a` that completed byte 1. -/
def State.ended (s : State) (a : Agent) (sent : List Byte) (bits : List Bool) (response : Option Response)
    (crc frame : Bool) : State :=
  { s with
    csnLow := false
    receiver := none
    sdo := [0, s.statusByte a] ++ sent
    sdoBits := bits
    ports := put s.ports a
      { s.ports[a] with
        response := response, overrun := false, lost := false, crcError := crc, frameError := frame } }

/-- R176: what is left in the response slot once `n` bytes from byte 2 on were sent. -/
def State.left (s : State) (h : Byte) (n : Nat) : Option Response :=
  if (s.sends h).2 = true ∧ (s.sends h).1.length ≤ n then none else s.ports[headerAgent h].response

/-- R168: the reception of a transaction that has completed byte 1. -/
def State.reception (s : State) (h y : Byte) (rest : List Byte) : Reception :=
  { bytes := h :: y :: rest, captured := s.statusByte (headerAgent h), sending := (s.sends h).1
    taking := (s.sends h).2 }

/-- R168, R171, R176: the part within a transaction that has completed byte 1. -/
def State.hearing (s : State) (h y : Byte) (rest : List Byte) : State :=
  { s.ended (headerAgent h) (sentBytes (s.sends h).1 rest.length) [] (s.left h rest.length) false false with
    csnLow := true, receiver := some (s.reception h y rest) }

/-- R168, R169: CSn falls while RESETn is high. -/
theorem csnFall_high (hh : s.resetn = .high) :
    s.csnFall = { s with csnLow := true, sdo := [], sdoBits := [], receiver := some .opening } := by
  rw [State.csnFall, if_pos hh]

/-- R171, R176: byte 0 captures the status byte and chooses the frame of a FETCH. -/
theorem portByte_header (hh : s.resetn = .high) : s.csnFall.portByte h = { s with
    csnLow := true, sdo := [0], sdoBits := []
    receiver := some { bytes := [h], captured := s.statusByte (headerAgent h), sending := (s.sends h).1
                       taking := (s.sends h).2 } } := by
  rw [csnFall_high hh]
  rfl

theorem put_self {α : Type} {n : Nat} (v : Vector α n) (i : Fin n) : put v i v[i] = v :=
  table_ext fun j => by
    rw [put_get_fin]
    split
    · next e => rw [e]
    · rfl

/-- R168, R171, R176: a whole byte after byte 0: byte 1 clears the flags shown, and the last byte of a response takes
it from its slot. -/
theorem portByte_later {x : Reception} {l : List Byte} (hx : s.receiver = some x) (hb : x.bytes = h :: l) (b : Byte) :
    let p := if l = [] then s.ports[headerAgent h].clearShown x.captured else s.ports[headerAgent h]
    s.portByte b = { s with
      sdo := s.sdo ++ [x.output (l.length + 1)]
      receiver := some { x with bytes := h :: l ++ [b] }
      ports := put s.ports (headerAgent h) { p with
        response := if x.taking = true ∧ l.length = x.sending.length then none
          else s.ports[headerAgent h].response } } := by
  intro p
  have hlen : x.bytes.length = l.length + 1 := by rw [hb, List.length_cons]
  have hfirst : l.length + 1 = 1 ↔ l = [] := by rw [Nat.add_eq_right, List.length_eq_zero_iff]
  have hlast : (x.taking = true ∧ l.length + 1 = x.sending.length + 1) ↔
      x.taking = true ∧ l.length = x.sending.length := and_congr_right fun _ => Nat.add_right_cancel_iff
  simp only [State.portByte, hx, hlen, hfirst, hlast, p]
  simp only [hb]
  by_cases hl : l = [] <;> by_cases ht : x.taking = true ∧ l.length = x.sending.length
  · simp only [if_pos hl, if_pos ht, State.takeResponse, State.clearFlags, State.setPort, put_get_fin, put_put, if_true]
  · simp only [if_pos hl, if_neg ht, State.clearFlags, State.setPort]
    rfl
  · simp only [if_neg hl, if_pos ht, State.takeResponse, State.setPort]
  · have hself : put s.ports (headerAgent h) { s.ports[headerAgent h] with
        response := s.ports[headerAgent h].response } = s.ports := put_self ..
    simp only [if_neg hl, if_neg ht, hself]

/-- R171, R176: byte 1 clears the flags. -/
theorem portByte_second (hh : s.resetn = .high) : (s.csnFall.portByte h).portByte y = s.hearing h y [] := by
  rw [portByte_header hh, portByte_later (h := h) (l := []) rfl rfl]
  have hport := clearShown_statusByte s (headerAgent h)
  have hleft : (if (s.sends h).2 = true ∧ 0 = (s.sends h).1.length then none else s.ports[headerAgent h].response) =
      s.left h 0 := if_congr (and_congr_right fun _ => by omega) rfl rfl
  simp only [if_true, hport, List.length_nil, hleft]
  rfl

/-- R168, R176: a byte after byte 1 sends the next byte of the frame, and its last one takes the response. -/
theorem portByte_hearing (b : Byte) : (s.hearing h y rest).portByte b = s.hearing h y (rest ++ [b]) := by
  have hsent : sentBytes (s.sends h).1 (rest ++ [b]).length =
      sentBytes (s.sends h).1 rest.length ++ [(s.sends h).1.getD rest.length 0] := by
    rw [List.length_append, List.length_singleton, sentBytes, List.range_succ, List.map_append]
    rfl
  have hleft : (if (s.sends h).2 = true ∧ rest.length + 1 = (s.sends h).1.length then none
      else s.left h rest.length) = s.left h (rest ++ [b]).length := by
    rw [State.left, State.left, List.length_append, List.length_singleton]
    split
    · next hl => rw [if_pos (And.imp_right (fun e => e.ge) hl)]
    · next hn =>
      refine if_congr (and_congr_right fun ht => ?_) rfl rfl
      have hne : rest.length + 1 ≠ (s.sends h).1.length := fun e => hn ⟨ht, e⟩
      omega
  rw [portByte_later (h := h) (l := y :: rest) rfl rfl]
  have hport : (s.hearing h y rest).ports[headerAgent h] = { s.ports[headerAgent h] with
      response := s.left h rest.length, overrun := false, lost := false, crcError := false, frameError := false } := by
    simp only [State.hearing, State.ended, put_get_fin, if_true]
  simp only [hport, if_neg (List.cons_ne_nil y rest)]
  simp only [State.hearing, State.ended, State.reception, List.length_cons, put_put, Reception.output, ← hleft, hsent,
    List.cons_append, List.append_assoc]
  rfl

/-- R168: the bytes of a transaction that completes byte 1. -/
theorem portBytes_eq (hh : s.resetn = .high) (y : Byte) (rest : List Byte) :
    (h :: y :: rest).foldl State.portByte s.csnFall = s.hearing h y rest := by
  rw [List.foldl_cons, List.foldl_cons, portByte_second hh]
  induction rest using List.reverseRecOn with
  | nil => rfl
  | append_singleton rest b ih => rw [List.foldl_append, ih, List.foldl_cons, List.foldl_nil, portByte_hearing]

/-- R168, R175: a transaction that completes byte 1, up to the checks at its end. -/
theorem transfer_whole (hh : s.resetn = .high) (hl : s.csnLow = false) (y : Byte) (rest : List Byte) (bits : Fin 8) :
    s.transfer (headerType h) { opens := true, bytes := h :: y :: rest, bits := bits, closes := true } =
      (s.ended (headerAgent h) (sentBytes (s.sends h).1 rest.length) (sentBits (s.sends h).1 rest.length bits.val)
        (s.left h rest.length) false false).endTransaction (s.reception h y rest) bits := by
  have hok : ¬ (true = s.csnLow ∨ (s.transferType
      { opens := true, bytes := h :: y :: rest, bits := bits, closes := true }).any (· != headerType h) = true) := by
    rw [hl]
    simp [State.transferType]
  rw [State.transfer, if_neg hok]
  simp only [if_true, portBytes_eq hh]
  rfl

/-! ## The checks at its end -/

theorem ended_frameFault (sent : List Byte) (bits : List Bool) (o : Option Response) (crc frame : Bool) :
    (s.ended a sent bits o crc frame).frameFault a = s.ended a sent bits o crc true := by
  simp only [State.frameFault, State.ended, State.setPort, put_get_fin, if_true, put_put]

theorem ended_crcFault (sent : List Byte) (bits : List Bool) (o : Option Response) (crc frame : Bool) :
    (s.ended a sent bits o crc frame).crcFault a = s.ended a sent bits o true frame := by
  simp only [State.crcFault, State.ended, State.setPort, put_get_fin, if_true, put_put]

/-- R176: a transaction of a type other than FETCH sends 0x00 and takes nothing. -/
theorem sends_of_type (ht : headerType h ≠ 2) : s.sends h = ([], false) := if_neg ht

theorem left_of_type (ht : headerType h ≠ 2) (n : Nat) : s.left h n = s.ports[headerAgent h].response := by
  rw [State.left, sends_of_type ht, if_neg (fun ⟨h, _⟩ => Bool.false_ne_true h)]

end Sys2Proof.Machine
end

section
/-! PROOFS. The four transactions, whole, cut and ignored (R168 to R177). -/

namespace Sys2Proof.Machine

variable {s : State} {a : Agent} {h y : Byte} {rest : List Byte} {bits : Fin 8}

/-! ## What a whole transaction of each type does -/

/-- R168: a whole transaction of a type other than FETCH sends 0x00 from byte 2 on. -/
theorem transfer_silent {t : Nat} (ha : headerAgent h = a) (ht : headerType h = t) (hne : t ≠ 2)
    (hh : s.resetn = .high) (hl : s.csnLow = false) (y : Byte) (rest : List Byte) (bits : Fin 8) :
    s.transfer t { opens := true, bytes := h :: y :: rest, bits := bits, closes := true } =
      (s.ended a (List.replicate rest.length 0) (List.replicate bits.val false) s.ports[a].response false
        false).endTransaction (s.reception h y rest) bits := by
  subst ha ht
  rw [transfer_whole hh hl, left_of_type hne, sends_of_type hne, sentBytes_nil, sentBits_nil]

/-- R173, R175: the end of a REQUEST that completed byte 1. -/
theorem endTransaction_request {u : State} (ha : headerAgent h = a) (ht : headerType h = 1) :
    u.endTransaction (s.reception h y rest) bits.val = u.endRequest a (h :: y :: rest) bits.val := by
  subst ha
  simp only [State.endTransaction, State.reception, ht, if_neg (List.cons_ne_nil y rest)]

/-- R175, R176: the end of a FETCH that completed byte 1. -/
theorem endTransaction_fetch {u : State} (ha : headerAgent h = a) (ht : headerType h = 2) :
    u.endTransaction (s.reception h y rest) bits.val =
      if rest.length < (s.sends h).1.length then u.frameFault a else u := by
  subst ha
  have hlt : rest.length + 1 + 1 < 2 + (s.sends h).1.length ↔ rest.length < (s.sends h).1.length := by omega
  simp only [State.endTransaction, State.reception, ht, if_neg (List.cons_ne_nil y rest), List.length_cons, hlt]

/-- R175: the end of a STATUS that completed byte 1. -/
theorem endTransaction_status {u : State} (ha : headerAgent h = a) (ht : headerType h = 3) :
    u.endTransaction (s.reception h y rest) bits.val = if rest = [] ∧ bits = 0 then u else u.frameFault a := by
  subst ha
  have hlen : (rest.length + 1 + 1 ≠ 2 ∨ bits.val ≠ 0) ↔ ¬ (rest = [] ∧ bits = 0) := by
    rw [not_and_or, ← List.length_eq_zero_iff, Fin.ext_iff]
    exact or_congr (by omega) Iff.rfl
  simp only [State.endTransaction, State.reception, ht, if_neg (List.cons_ne_nil y rest), List.length_cons, hlen,
    ite_not]

/-- R175: the end of a transaction of header type 0 that completed byte 1. -/
theorem endTransaction_type0 {u : State} (ha : headerAgent h = a) (ht : headerType h = 0) :
    u.endTransaction (s.reception h y rest) bits.val = u.frameFault a := by
  subst ha
  simp only [State.endTransaction, State.reception, ht, if_neg (List.cons_ne_nil y rest)]

/-! ## REQUEST -/

/-- R173, R175: a REQUEST with a wrong count of bytes, a length byte out of range or an incomplete byte. -/
theorem endRequest_frame {bytes : List Byte} {u : State} {n : Nat} (hn : (byteAt bytes 3).toNat = n)
    (h : bytes.length < 4 ∨ 28 < n ∨ bytes.length ≠ 5 + n ∨ bits ≠ 0) :
    u.endRequest a bytes bits.val = u.frameFault a := by
  have hbits : bits ≠ 0 → bits.val ≠ 0 := fun hb e => hb (Fin.ext e)
  have hmax : Config.maxParams = 28 := rfl
  subst hn
  unfold State.endRequest
  dsimp only
  split
  · rfl
  · split
    · rfl
    · refine if_pos ?_
      rcases h with h | h | h | h
      · contradiction
      · contradiction
      · exact .inl h
      · exact .inr (hbits h)

/-- R173, R174: a REQUEST that is well formed but for its CRC-8. -/
theorem endRequest_crc {bytes : List Byte} {u : State} {n : Nat} (hn : (byteAt bytes 3).toNat = n) (hle : n ≤ 28)
    (hlen : bytes.length = 5 + n) (hcrc : byteAt bytes (4 + n) ≠ crc8 (bytes.take (4 + n))) :
    u.endRequest a bytes 0 = u.crcFault a := by
  subst hn
  rw [State.endRequest, if_neg (by omega), if_neg (c := Config.maxParams < _) (Nat.not_lt.2 hle),
    if_neg (by simp [hlen]), if_pos hcrc]

/-- R155, R173: a good REQUEST arrives. -/
theorem endRequest_good {bytes : List Byte} {u : State} {n : Nat} (hn : (byteAt bytes 3).toNat = n) (hle : n ≤ 28)
    (hlen : bytes.length = 5 + n) (hcrc : byteAt bytes (4 + n) = crc8 (bytes.take (4 + n))) :
    u.endRequest a bytes 0 =
      u.arrive a { seq := byteAt bytes 1, code := byteAt bytes 2, params := (bytes.drop 4).take n } := by
  subst hn
  rw [State.endRequest, if_neg (by omega), if_neg (c := Config.maxParams < _) (Nat.not_lt.2 hle),
    if_neg (by simp [hlen]), if_neg (not_not.2 hcrc)]

/-- Settles O7: the transaction ends with a frame that passes its checks (`endRequest_good`). -/
theorem goodRequestTransactionArrives : Obligations.GoodRequestTransactionArrives := by
  unfold Obligations.GoodRequestTransactionArrives
  intro s a k q c p hh hl hlen
  let covered : List Byte := [toByte (64 * a.val + 16 * (1 : Fin 4).val + k.val), q, c, toByte p.length] ++ p
  have hcov : covered.length = 4 + p.length := by
    simp only [covered, List.length_append, List.length_cons, List.length_nil, Nat.zero_add]
  have hn : (byteAt (covered ++ [crc8 covered]) 3).toNat = p.length := by
    have h3 : byteAt (covered ++ [crc8 covered]) 3 = toByte p.length := rfl
    rw [h3, toByte, BitVec.toNat_ofNat, Nat.mod_eq_of_lt (by omega)]
  have htake : (covered ++ [crc8 covered]).take (4 + p.length) = covered := List.take_left' hcov
  have hlast : byteAt (covered ++ [crc8 covered]) (4 + p.length) = crc8 covered := by
    rw [byteAt, List.getD_append_right _ _ _ _ (by omega), hcov, Nat.sub_self]
    rfl
  have hparams : ((covered ++ [crc8 covered]).drop 4).take p.length = p := List.take_left
  have hrest : ([c, toByte p.length] ++ p ++ [crc8 covered]).length = p.length + 3 := by simp
  refine congrArg Host.Outcome.next ((transfer_silent (headerAgent_header a 1 k) (headerType_header a 1 k) (by decide)
    hh hl q ([c, toByte p.length] ++ p ++ [crc8 covered]) 0).trans ?_)
  refine (endTransaction_request (headerAgent_header a 1 k) (headerType_header a 1 k)).trans ?_
  refine (endRequest_good (bytes := covered ++ [crc8 covered]) hn hlen (by simp [hcov]; omega) ?_).trans ?_
  · rw [hlast, htake]
  · rw [hparams, hrest]
    rfl

/-- R174: the CRC-8 covers bytes one after another. -/
theorem crc8_append (l : List Byte) (b : Byte) : crc8 (l ++ [b]) = crcShift8 (crc8 l ^^^ b) := by
  rw [crc8, List.foldl_append]
  rfl

/-- Settles O9: the checks at the end of the transaction (`endRequest_frame`, `endRequest_crc`). -/
theorem malformedRequestTransactionIsDropped : Obligations.MalformedRequestTransactionIsDropped := by
  unfold Obligations.MalformedRequestTransactionIsDropped
  refine ⟨fun s a k q rest bits hh hl => ?_, ?_⟩
  · intro bytes n ends run
    have hrun : run = .next (((s.ended a (List.replicate rest.length 0) (List.replicate bits.val false)
        s.ports[a].response false false)).endRequest a bytes bits.val) := by
      exact congrArg Host.Outcome.next ((transfer_silent (headerAgent_header a 1 k) (headerType_header a 1 k)
        (by decide) hh hl q rest bits).trans
        (endTransaction_request (headerAgent_header a 1 k) (headerType_header a 1 k)))
    refine ⟨fun hbad => ?_, fun h2 hn hlen hb hcrc => ?_⟩
    · rw [hrun, endRequest_frame (n := n) rfl, ended_frameFault]
      · rfl
      · exact hbad.imp_left fun hr => by simp only [bytes, List.length_cons]; omega
    · subst hb
      refine hrun.trans ?_
      refine congrArg Host.Outcome.next ((endRequest_crc (n := n) rfl hn hlen hcrc).trans ?_)
      exact ended_crcFault ..
  · intro shift
    refine ⟨rfl, fun covered b => ?_⟩
    rw [crc8_append]
    rfl

end Sys2Proof.Machine
end

section
/-! PROOFS. FETCH (R176, R177), and transactions cut short or ignored (R168, R169, R175). -/

namespace Sys2Proof.Machine

variable {s : State} {a : Agent} {h y : Byte} {rest : List Byte} {bits : Fin 8}

/-! ## FETCH -/

/-- R176: a READY response with no request waiting or served is sent and taken. -/
theorem fetchChoice_response {r : Response} (hr : s.ports[a].response = some r)
    (hw : ∀ f, s.ports[a].request ≠ .queued f ∧ s.ports[a].request ≠ .active f) :
    s.fetchChoice a = (r.bytes, true) := by
  unfold State.fetchChoice
  cases hq : s.ports[a].request with
  | queued f => exact absurd hq (hw f).1
  | active f => exact absurd hq (hw f).2
  | empty => simp only [hr]
  | sweepQueued => simp only [hr]
  | sweepActive => simp only [hr]

/-- R176: without a response, or with a request waiting or served, the empty frame is sent. -/
theorem fetchChoice_empty (hn : s.ports[a].response = none ∨
    ∃ f, s.ports[a].request = .queued f ∨ s.ports[a].request = .active f) :
    s.fetchChoice a = (emptyFrame, false) := by
  unfold State.fetchChoice
  rcases hn with hn | ⟨f, hq | hq⟩
  · cases s.ports[a].request <;> simp only [hn]
  · simp only [hq]
  · simp only [hq]

/-- R174, R176: the bytes of the empty frame. -/
theorem emptyFrame_bytes : emptyFrame = [0, 0, 0, 0, 0xD1] := by
  decide +kernel

/-- R175, R176: a whole FETCH, by the frame chosen. -/
theorem transfer_fetch {frame : List Byte} {taking : Bool} (ha : headerAgent h = a) (ht : headerType h = 2)
    (hf : s.fetchChoice a = (frame, taking)) (hh : s.resetn = .high) (hl : s.csnLow = false) (y : Byte)
    (rest : List Byte) (bits : Fin 8) :
    s.transfer 2 { opens := true, bytes := h :: y :: rest, bits := bits, closes := true } =
      s.ended a (sentBytes frame rest.length) (sentBits frame rest.length bits.val)
        (if taking = true ∧ frame.length ≤ rest.length then none else s.ports[a].response) false
        (decide (rest.length < frame.length)) := by
  subst ha
  have hsend : s.sends h = (frame, taking) := (if_pos ht).trans hf
  refine (congrArg (fun t => s.transfer t _) ht.symm).trans ((transfer_whole hh hl y rest bits).trans ?_)
  rw [endTransaction_fetch rfl ht, State.left, hsend]
  by_cases hlt : rest.length < frame.length
  · rw [if_pos hlt, ended_frameFault, decide_eq_true hlt]
  · rw [if_neg hlt, decide_eq_false hlt]

/-- Settles O10: the frame chosen (`fetchChoice_response`, `fetchChoice_empty`) is sent (`transfer_fetch`). -/
theorem fetchTransactionSendsResponse : Obligations.FetchTransactionSendsResponse := by
  unfold Obligations.FetchTransactionSendsResponse
  intro s a k x rest bits hh hl run code frame ends
  have hrun {fr : List Byte} {taking : Bool} (hf : s.fetchChoice a = (fr, taking)) :
      run = ends fr (if taking = true ∧ fr.length ≤ rest.length then none else s.ports[a].response) :=
    congrArg Host.Outcome.next
      (transfer_fetch (headerAgent_header a 2 k) (headerType_header a 2 k) hf hh hl x rest bits)
  have hcode (st : Status) : code st = st.code := by cases st <;> rfl
  have hframe (r : Response) : frame r = r.bytes := by
    simp only [frame, hcode]
    rfl
  refine ⟨fun r hr hw => ?_, fun hn => ?_⟩
  · rw [hrun (fetchChoice_response hr hw), hframe, hr]
    refine congrArg (ends r.bytes) ?_
    by_cases hlt : rest.length < r.bytes.length
    · rw [if_pos hlt, if_neg fun hle => Nat.not_le.2 hlt hle.2]
    · rw [if_neg hlt, if_pos ⟨rfl, Nat.le_of_not_lt hlt⟩]
  · rw [hrun (fetchChoice_empty hn), if_neg fun hf => Bool.false_ne_true hf.1, emptyFrame_bytes]

/-! ## Transactions cut short -/

/-- R168, R175: a transaction that ends before byte 0 is complete. -/
theorem transfer_nothing (type : Nat) (hh : s.resetn = .high) (hl : s.csnLow = false) (bits : Fin 8) :
    s.transfer type { opens := true, bytes := [], bits := bits, closes := true } =
      { s with csnLow := false, receiver := none, sdo := [], sdoBits := List.replicate bits.val false } := by
  have hok : ¬ (true = s.csnLow ∨ (s.transferType
      { opens := true, bytes := [], bits := bits, closes := true }).any (· != type) = true) := by
    rw [hl]
    rintro (h | h) <;> cases h
  have hbits : Reception.opening.partialByte bits.val = List.replicate bits.val false := by
    simp [Reception.partialByte, Reception.opening, Reception.output]
  rw [State.transfer, if_neg hok, ← hbits]
  simp only [if_true, List.foldl_nil, csnFall_high hh]
  rfl

/-- R175: a transaction that ends after byte 0 and before byte 1 is complete. -/
theorem transfer_header {t : Nat} (ha : headerAgent h = a) (ht : headerType h = t) (hh : s.resetn = .high)
    (hl : s.csnLow = false) (bits : Fin 8) :
    s.transfer t { opens := true, bytes := [h], bits := bits, closes := true } = { s with
      csnLow := false
      receiver := none
      sdo := [0]
      sdoBits := (List.range bits.val).map fun j => (s.statusByte a).getMsbD j
      ports := put s.ports a { s.ports[a] with frameError := true } } := by
  subst ha ht
  have hok : ¬ (true = s.csnLow ∨ (s.transferType
      { opens := true, bytes := [h], bits := bits, closes := true }).any (· != headerType h) = true) := by
    rw [hl]
    simp [State.transferType]
  rw [State.transfer, if_neg hok]
  simp only [if_true, List.foldl_cons, List.foldl_nil, portByte_header hh]
  rfl

/-! ## Transactions that the port ignores -/

/-- R168: SDO is at high impedance unless a transaction is received while RESETn is high. -/
theorem sdoByte_none (h : s.csnLow = false ∨ s.resetn ≠ .high ∨ s.receiver = none) : s.sdoByte = none := by
  unfold State.sdoByte
  rcases h with h | h | h
  · rw [h]
    cases s.resetn <;> rfl
  · cases hr : s.resetn with
    | high => exact absurd hr h
    | low => rfl
    | lowSincePowerOn => rfl
  · exact sdoByte_of_receiver_none h

/-- R169: the rest of a transaction that the port ignores. -/
theorem transfer_ignored (type : Nat) (hl : s.csnLow = true) (hn : s.receiver = none) (bytes : List Byte)
    (bits : Fin 8) (closes : Bool) :
    s.transfer type { opens := false, bytes := bytes, bits := bits, closes := closes } =
      { s with csnLow := !closes } := by
  have hok : ¬ (false = s.csnLow ∨ (s.transferType
      { opens := false, bytes := bytes, bits := bits, closes := closes }).any (· != type) = true) := by
    rw [hl, transferType_ignored s hn rfl]
    rintro (h | h) <;> cases h
  rw [State.transfer, if_neg hok]
  simp only [Bool.false_eq_true, if_false, portBytes_ignored s hn]
  cases closes with
  | true => exact csnRise_ignored s hn _
  | false => exact (congrArg (fun v => { s with csnLow := v }) hl : { s with csnLow := s.csnLow } = _)

/-- R169: a transaction that opens while RESETn is low. -/
theorem transfer_inReset (type : Nat) (hl : s.csnLow = false) (hr : s.resetn ≠ .high) {bytes : List Byte}
    (hb : ∀ h ∈ bytes.head?, headerType h = type) (bits : Fin 8) (closes : Bool) :
    s.transfer type { opens := true, bytes := bytes, bits := bits, closes := closes } =
      { s with csnLow := !closes, receiver := none, sdo := [], sdoBits := [] } := by
  have hok : ¬ (true = s.csnLow ∨ (s.transferType
      { opens := true, bytes := bytes, bits := bits, closes := closes }).any (· != type) = true) := by
    rw [hl]
    cases bytes with
    | nil => rintro (h | h) <;> cases h
    | cons h rest => simp [State.transferType, hb h rfl]
  have hfall : s.csnFall = { s with csnLow := true, sdo := [], sdoBits := [], receiver := none } := by
    rw [State.csnFall, if_neg hr]
  have hn : s.csnFall.receiver = none := if_neg hr
  rw [State.transfer, if_neg hok]
  simp only [if_true, portBytes_ignored _ hn]
  cases closes with
  | true => exact (csnRise_ignored _ hn _).trans (congrArg (fun u => { u with csnLow := false }) hfall)
  | false => exact hfall

/-- R168 to R175: the four rows of the port. -/
theorem exec_transaction {c : Transfer → Instr} {type : Nat} (hc : (c, type) ∈ [(Instr.headerType0Transaction, 0),
    (Instr.requestTransaction, 1), (Instr.fetchTransaction, 2), (Instr.statusTransaction, 3)]) (x : Transfer) :
    exec (c x) s = .next (s.transfer type x) := by
  simp only [List.mem_cons, Prod.mk.injEq, List.not_mem_nil, or_false] at hc
  rcases hc with ⟨rfl, rfl⟩ | ⟨rfl, rfl⟩ | ⟨rfl, rfl⟩ | ⟨rfl, rfl⟩ <;> rfl

/-- Settles O11: STATUS and type 0, the cuts (`transfer_nothing`, `transfer_header`), the status byte
(`statusByte_fields`) and what the port ignores (`transfer_ignored`, `transfer_inReset`). -/
theorem statusAndCutTransactions : Obligations.StatusAndCutTransactions := by
  unfold Obligations.StatusAndCutTransactions
  refine ⟨fun s a k bits hh hl => ?_, fun s a => ?_, fun s hs => sdoByte_none hs,
    fun s c type bytes bits closes hc => ⟨fun hl hn => ?_, fun hl hr hb => ?_⟩⟩
  · intro x h ends none_ cut
    have hagent (t : Fin 4) : headerAgent (h t.val) = a := headerAgent_header a t k
    have htype (t : Fin 4) : headerType (h t.val) = t.val := headerType_header a t k
    have hcut (t : Fin 4) : Host.Outcome.next (s.transfer t.val (x [h t.val])) = cut :=
      congrArg Host.Outcome.next (transfer_header (hagent t) (htype t) hh hl bits)
    have hnone (t : Nat) : Host.Outcome.next (s.transfer t (x [])) = none_ :=
      congrArg Host.Outcome.next (transfer_nothing t hh hl bits)
    refine ⟨fun y rest => ⟨?status, ?type0⟩, hnone 1, hnone 2, hnone 3, hnone 0, hcut 1, hcut 2, hcut 3, hcut 0⟩
    case status =>
      refine congrArg Host.Outcome.next ((transfer_silent (hagent 3) (htype 3) (by decide) hh hl y rest bits).trans
        ((endTransaction_status (hagent 3) (htype 3)).trans ?_))
      by_cases hok : rest = [] ∧ bits = 0
      · obtain ⟨rfl, rfl⟩ := hok
        rfl
      · have hframe : (!(rest.isEmpty && bits == 0)) = true := by
          rw [Bool.not_eq_true', Bool.eq_false_iff, ne_eq, Bool.and_eq_true, List.isEmpty_iff, beq_iff_eq]
          exact hok
        rw [if_neg hok, ended_frameFault, hframe]
        rfl
    case type0 =>
      refine congrArg Host.Outcome.next ((transfer_silent (hagent 0) (htype 0) (by decide) hh hl y rest bits).trans
        ((endTransaction_type0 (hagent 0) (htype 0)).trans ?_))
      exact ended_frameFault ..
  · intro b
    obtain ⟨hreq, hfields⟩ := statusByte_fields s a
    refine ⟨hreq.trans ?_, hfields⟩
    cases s.ports[a].request <;> rfl
  · exact (exec_transaction hc _).trans (congrArg Host.Outcome.next (transfer_ignored type hl hn bytes bits closes))
  · exact (exec_transaction hc _).trans (congrArg Host.Outcome.next (transfer_inReset type hl hr hb bits closes))

end Sys2Proof.Machine
end
